-- ==== Sys2Proof/Word.lean ====
section
/-! DEFINITION. The widths of the engine (R7, R8), the two sample records of the grids (R39, R41) and the two bits a
command word carries (R90). -/

namespace Sys2Proof

/-- A host-port register or command word, `u32` (R7, R21). -/
abbrev Word := BitVec 32

/-- A coordinate, a dimension or a source component, `u16` (R7). -/
abbrev Half := BitVec 16

/-- An output component, `u8` (R7). -/
abbrev Byte := BitVec 8

/-- One cell of the source grid: four `u16` components (R39). -/
structure Sample where
  r : Half
  g : Half
  b : Half
  a : Half
deriving DecidableEq, Repr, Inhabited

/-- One cell of the RGBA grid: four `u8` components (R41). -/
structure Pixel where
  r : Byte
  g : Byte
  b : Byte
  a : Byte
deriving DecidableEq, Repr, Inhabited

/-- The zero-initialised default cell of the RGBA grid (R7). -/
def Pixel.zero : Pixel := ⟨0, 0, 0, 0⟩

/-- The transform a command names: the meaning of bit XFORM (R90). -/
inductive Xform where
  /-- XFORM = 0: luminance extraction, the grayscale transform. -/
  | luminance
  /-- XFORM = 1: the 3x3 convolution, the sharpen transform. -/
  | convolution
deriving DecidableEq, Repr, Inhabited

/-- The executor a command names: the meaning of bit EXEC (R90). -/
inductive Executor where
  /-- EXEC = 0: one worker. -/
  | sequential
  /-- EXEC = 1: NWORK workers. -/
  | parallel
deriving DecidableEq, Repr, Inhabited

end Sys2Proof
end

