-- ==== Sys2Proof/Syntax.lean ====
section
/-! DEFINITION. The four commands of the opcode map (R93). A command carries no operand: all operands are implicit (R92). -/

namespace Sys2Proof

/-- One constructor per row of the opcode table (R93), named `<XFORM>.<EXEC>` (R96). -/
inductive Instr where
  /-- GRAY.SEQ, word 0x00000000 (R124). -/
  | graySeq
  /-- SHARP.SEQ, word 0x00000001 (R143). -/
  | sharpSeq
  /-- GRAY.PAR, word 0x00000002 (R125). -/
  | grayPar
  /-- SHARP.PAR, word 0x00000003 (R144). -/
  | sharpPar
deriving DecidableEq, Repr

end Sys2Proof
end

