-- ==== Sys2Proof/WellFormed.lean ====
section
/-! DEFINITION. What makes a command word legal (R91) and a command well formed (R92). -/

namespace Sys2Proof

/-- Bits 31:2 of a command word, the field ZERO (R90). -/
def zeroField (w : Word) : BitVec 30 := w.extractLsb' 2 30

/-- A command word is legal exactly when its field ZERO is 0 (R91, R94). -/
def commandWordLegal (w : Word) : Bool := zeroField w == 0

/-- A command has no register number, immediate or address that could be out of range (R92): each is well formed. -/
def Instr.wellFormed : Instr → Bool
  | .graySeq => true
  | .sharpSeq => true
  | .grayPar => true
  | .sharpPar => true

end Sys2Proof
end

