-- ==== Sys2Proof/Decode.lean ====
section
/-! DEFINITION. The decoder of command words (R91), total on all 2^32 words, and after it the encoder from the opcode
map (R93). -/

namespace Sys2Proof

/-- Why a word is no command. -/
inductive DecodeError where
  /-- `w[31:2] != 0`: an illegal command word, the cause of ERR_OP (R94, R183). -/
  | zeroFieldNotZero
deriving DecidableEq, Repr

/-- The transform bit of a command word, XFORM (R90). -/
def wordXform (w : Word) : Xform := if w.getLsbD 0 then .convolution else .luminance

/-- The executor bit of a command word, EXEC (R90). -/
def wordExecutor (w : Word) : Executor := if w.getLsbD 1 then .parallel else .sequential

/-- The command with a given pair of bits (R93). -/
def commandOf : Xform → Executor → Instr
  | .luminance, .sequential => .graySeq
  | .convolution, .sequential => .sharpSeq
  | .luminance, .parallel => .grayPar
  | .convolution, .parallel => .sharpPar

/-- Decoding a command word (R91). -/
def decode (w : Word) : Except DecodeError Instr :=
  if commandWordLegal w then .ok (commandOf (wordXform w) (wordExecutor w)) else .error .zeroFieldNotZero

/-- The transform of a command (R93). -/
def Instr.xform : Instr → Xform
  | .graySeq => .luminance
  | .sharpSeq => .convolution
  | .grayPar => .luminance
  | .sharpPar => .convolution

/-- The executor of a command (R93). -/
def Instr.executor : Instr → Executor
  | .graySeq => .sequential
  | .sharpSeq => .sequential
  | .grayPar => .parallel
  | .sharpPar => .parallel

/-- The command word of each row of the opcode map (R93). -/
def encode : Instr → Word
  | .graySeq => 0x00000000#32
  | .sharpSeq => 0x00000001#32
  | .grayPar => 0x00000002#32
  | .sharpPar => 0x00000003#32

/-- The command the decoder reads from a word given as a number of `nbits` bits. A command is one 32-bit word and no
byte order enters (R90, R64), so the number is the word; more than 32 bits are no command. -/
def decodeTableWord (nbits w : Nat) : Option Instr :=
  if 32 < nbits then none
  else match decode (BitVec.ofNat 32 (w % 2 ^ nbits)) with
    | .ok i => some i
    | .error _ => none

end Sys2Proof
end

