-- ==== Sys2Proof/Config.lean ====
section
/-! DEFINITION. What an implementation fixes (the parameters of R6) and the free values (U8, U9, U10, U12). No constant
here has a body, so nothing can be proved of its value. -/

namespace Sys2Proof

/-- NWORK less one: the parameter is in 1 .. 65535 (R6, log 1). -/
opaque Config.workersLessOne : Fin 65535

/-- XMAX less one: the parameter is in 1 .. 65535 (R6, log 1). -/
opaque Config.columnsLessOne : Fin 65535

/-- YMAX less one: the parameter is in 1 .. 65535 (R6, log 1). -/
opaque Config.rowsLessOne : Fin 65535

/-- The parameter `NWORK` (R6). -/
def Config.nwork : Half := BitVec.ofNat 16 (Config.workersLessOne.val + 1)

/-- The parameter `XMAX` (R6). -/
def Config.xmax : Half := BitVec.ofNat 16 (Config.columnsLessOne.val + 1)

/-- The parameter `YMAX` (R6). -/
def Config.ymax : Half := BitVec.ofNat 16 (Config.rowsLessOne.val + 1)

/-- The source cell with a given key after the given reset: unspecified (R45, U8, log 2). -/
opaque Config.resetSample : (epoch key : Nat) → Sample

/-- The gray cell with a given key after the given reset: unspecified (R45, U8, log 2). -/
opaque Config.resetGray : (epoch key : Nat) → Byte

/-- The RGBA cell with a given key after the given reset: unspecified (R45, U8, log 2). -/
opaque Config.resetPixel : (epoch key : Nat) → Pixel

/-- What the `n`th free draw returns to a refused read: `any` (R9, U10, log 6). -/
opaque Config.anyRead : Nat → Word

/-- Which of the enabled agents the `n`th free draw lets move (R164, U12, log 5). -/
opaque Config.anyAgent : Nat → Nat

end Sys2Proof
end

