-- ==== Sys2Proof/Machine/State.lean ====
section
/-! DEFINITION. The engine's state (R20), the outside world's share of it (log 4), the fault and the refusal, and reset
(R45). Plain data throughout. -/

namespace Sys2Proof.Machine

/-- The fields of STATUS (R23). Its reserved bits are no storage. -/
structure Status where
  busy : Bool
  done : Bool
  errOp : Bool
  errDim : Bool
  errBusy : Bool
  errLock : Bool
  errRange : Bool
  errAddr : Bool
deriving DecidableEq, Repr

/-- The registers private to one worker (R197): band, cursor and finished bit (R33, R35, R36). -/
structure Worker where
  bstart : Half
  bend : Half
  cx : Half
  cy : Half
  fin : Bool
deriving DecidableEq, Repr

/-- One grid (R60), as the cells written since `fill` took effect, by rising key. A cell not listed holds `fill`; where
`fill` is `none` it holds what it held after reset (R45, log 2). -/
structure Memory (α : Type) where
  fill : Option α
  cells : List (Nat × α)
deriving DecidableEq, Repr

/-- One statement of a host program (R97). -/
inductive HostOp where
  /-- `WR #idx, v`. -/
  | write (idx : BitVec 5) (v : Word)
  /-- `RD #idx`. -/
  | read (idx : BitVec 5)
  /-- `WAIT`: `RD STATUS` until BUSY is clear (R98). -/
  | wait
deriving DecidableEq, Repr

/-- Who can take the next step (R11, R200). -/
inductive Agent where
  /-- The host: the next operation of its program. -/
  | host
  /-- The sequencer: JOIN (R165). -/
  | sequencer
  /-- Worker `i`: one WORKER step (R164). -/
  | worker (i : Nat)
  /-- The reset input (R200). -/
  | resetLine
deriving DecidableEq, Repr

/-- The whole machine. -/
structure State where
  /-- STATUS (R23). -/
  status : Status
  /-- WIDTH (R24). -/
  width : Half
  /-- HEIGHT (R25). -/
  height : Half
  /-- PX_X (R27). -/
  pxX : Half
  /-- PX_Y (R27). -/
  pxY : Half
  /-- NWORK (R26). -/
  nwork : Half
  /-- CAPS, bits 15:0 (R31). -/
  xmax : Half
  /-- CAPS, bits 31:16 (R31). -/
  ymax : Half
  /-- The source grid (R39). -/
  src : Memory Sample
  /-- The gray grid (R40). -/
  gray : Memory Byte
  /-- The RGBA grid (R41). -/
  rgba : Memory Pixel
  /-- LCMD.XFORM (R34). -/
  lxform : Xform
  /-- LCMD.EXEC (R34). -/
  lexec : Executor
  /-- WL (R34). -/
  wl : Half
  /-- HL (R34). -/
  hl : Half
  /-- NEFF (R34). -/
  neff : Half
  /-- The workers 0 .. NWORK-1 in order (R20f). -/
  workers : List Worker
  /-- The host operations still to be performed (R97, log 4). -/
  program : List HostOp
  /-- What the host's reads returned, with the index read, newest first (R160, log 4). -/
  replies : List (BitVec 5 × Word)
  /-- Reset pulses still to come (R200, log 4). -/
  resetPulses : Nat
  /-- The order in which agents are wanted to move (R164, log 5). -/
  schedule : List Agent
  /-- How many free values have been drawn (log 6). -/
  draws : Nat
  /-- How many resets there were since power-on (log 6). -/
  epoch : Nat
deriving DecidableEq, Repr

/-- Why the machine stops with a fault. -/
inductive Fault where
  /-- Raised by a WORKER step that names a cell the physical grid does not have. Safe: the spec says no engine step ever
  does (R62, R180), and the model's invariant rules it out. -/
  | cellOutsideGrid
deriving DecidableEq, Repr

/-- Why a command has no meaning. -/
inductive Refusal where
  /-- Raised by an arm of `exec` for a command that has no meaning yet; no arm does. Safe: the model stops. -/
  | notModelled (mnemonic : String)
deriving DecidableEq, Repr

/-- STATUS after reset (R45). -/
def Status.reset : Status := ⟨false, false, false, false, false, false, false, false⟩

/-- A worker's registers after reset: unspecified and never read before a START (R45); the model's zeros (log 3). -/
def Worker.reset : Worker := ⟨0, 0, 0, 0, false⟩

/-- A grid after reset: every cell unspecified (R45). -/
def Memory.unwritten {α : Type} : Memory α := ⟨none, []⟩

/-- The state a reset leaves (R45, R200) in an engine of the given parameters, after the given number of earlier resets.
Latches and worker registers are the model's zeros (log 3). -/
def State.atReset (nwork xmax ymax : Half) (epoch : Nat) : State where
  status := Status.reset
  width := 0
  height := 0
  pxX := 0
  pxY := 0
  nwork := nwork
  xmax := xmax
  ymax := ymax
  src := Memory.unwritten
  gray := Memory.unwritten
  rgba := Memory.unwritten
  lxform := .luminance
  lexec := .sequential
  wl := 0
  hl := 0
  neff := 0
  workers := List.replicate nwork.toNat Worker.reset
  program := []
  replies := []
  resetPulses := 0
  schedule := []
  draws := 0
  epoch := epoch

/-- The machine right after reset, with the open parameters of Config (R6, R45). -/
def State.reset : State := State.atReset Config.nwork Config.xmax Config.ymax 0

end Sys2Proof.Machine
end

