-- ==== Sys2Proof/Machine/Flags.lean ====
section
/-! DEFINITION. STATUS: how a flag is raised and how the register reads (R23, R181). -/

namespace Sys2Proof.Machine

/-- The six error flags (R181). -/
inductive ErrFlag where
  | op
  | dim
  | busy
  | lock
  | range
  | addr
deriving DecidableEq, Repr

/-- `flag ERR_x`: the flag becomes 1 and every other field stays (R9, R181). -/
def Status.raise (e : ErrFlag) (st : Status) : Status :=
  match e with
  | .op => { st with errOp := true }
  | .dim => { st with errDim := true }
  | .busy => { st with errBusy := true }
  | .lock => { st with errLock := true }
  | .range => { st with errRange := true }
  | .addr => { st with errAddr := true }

/-- Whether a flag is set. -/
def Status.has (e : ErrFlag) (st : Status) : Bool :=
  match e with
  | .op => st.errOp
  | .dim => st.errDim
  | .busy => st.errBusy
  | .lock => st.errLock
  | .range => st.errRange
  | .addr => st.errAddr

/-- STATUS as a register: the fields of R23 at their bits, reserved bits 0 (R161). -/
def Status.word (st : Status) : Word :=
  0#18 ++ BitVec.ofBool st.errAddr ++ BitVec.ofBool st.errRange ++ BitVec.ofBool st.errLock
    ++ BitVec.ofBool st.errBusy ++ BitVec.ofBool st.errDim ++ BitVec.ofBool st.errOp
    ++ 0#6 ++ BitVec.ofBool st.done ++ BitVec.ofBool st.busy

/-- STATUS at an accepted START: BUSY 1, DONE 0, error flags kept (R163). -/
def Status.started (st : Status) : Status := { st with busy := true, done := false }

/-- STATUS at a JOIN: BUSY 0, DONE 1, error flags kept (R165). -/
def Status.joined (st : Status) : Status := { st with busy := false, done := true }

end Sys2Proof.Machine
end

