-- ==== Sys2Proof/Machine/Operands.lean ====
section
/-! DEFINITION. The implicit operands of the commands and of the window registers: the row-band partitioner (R110), the
loop bounds (R35), the checks on dimensions (R184) and on the selected cell (R167), the lanes of the windows (R28-R30)
and the kernel constant (R38). -/

namespace Sys2Proof

/-- What SRC_LO shows of a cell: `{G, R}` (R28). -/
def Sample.loWord (p : Sample) : Word := p.g ++ p.r

/-- What SRC_HI shows of a cell: `{A, B}` (R28). -/
def Sample.hiWord (p : Sample) : Word := p.a ++ p.b

/-- A write of SRC_LO replaces R and G and leaves B and A (R28, R168). -/
def Sample.withLo (p : Sample) (v : Word) : Sample := { p with r := v.extractLsb' 0 16, g := v.extractLsb' 16 16 }

/-- A write of SRC_HI replaces B and A and leaves R and G (R28, R168). -/
def Sample.withHi (p : Sample) (v : Word) : Sample := { p with b := v.extractLsb' 0 16, a := v.extractLsb' 16 16 }

/-- What RGBA_DATA shows of a cell: `{A, B, G, R}` (R30). -/
def Pixel.word (c : Pixel) : Word := c.a ++ c.b ++ c.g ++ c.r

end Sys2Proof

namespace Sys2Proof.Machine

/-- `Band(H, N, i)`: the half-open row range of worker `i` (R110). -/
def band (H N i : Nat) : Nat × Nat :=
  let rows := H / N
  if i + 1 < N then (i * rows, (i + 1) * rows) else ((N - 1) * rows, H)

/-- The loop bounds of one worker (R35). -/
structure Bounds where
  xlo : Nat
  xhi : Nat
  ylo : Nat
  yhi : Nat
deriving DecidableEq, Repr

/-- The loop bounds a band gives in a call of width `W` and height `H` (R35, R145). -/
def loopBounds (x : Xform) (W H bstart bend : Nat) : Bounds :=
  match x with
  | .luminance => ⟨0, W, bstart, bend⟩
  | .convolution => ⟨1, W - 1, max bstart 1, min bend (H - 1)⟩

/-- No pixel lies within the bounds (R36). -/
def Bounds.isEmpty (b : Bounds) : Bool := decide (b.xhi ≤ b.xlo) || decide (b.yhi ≤ b.ylo)

/-- The pixel at column `x`, row `y` lies within the bounds. -/
def Bounds.contains (b : Bounds) (x y : Nat) : Bool :=
  decide (b.xlo ≤ x) && decide (x < b.xhi) && decide (b.ylo ≤ y) && decide (y < b.yhi)

/-- The loop bounds of a worker of the current call: its band and the latched configuration (R35). -/
def State.boundsOf (s : State) (w : Worker) : Bounds :=
  loopBounds s.lxform s.wl.toNat s.hl.toNat w.bstart.toNat w.bend.toNat

/-- The worker count of a call: NWORK when parallel, 1 when sequential (R34). -/
def State.workerCount (s : State) (e : Executor) : Half :=
  match e with
  | .sequential => 1
  | .parallel => s.nwork

/-- `1 <= WIDTH <= XMAX` and `1 <= HEIGHT <= YMAX` (R162, R184). -/
def State.dimsLegal (s : State) : Bool :=
  !(s.width.toNat == 0 || decide (s.xmax.toNat < s.width.toNat)
    || s.height.toNat == 0 || decide (s.ymax.toNat < s.height.toNat))

/-- `InRange`: the selected cell is inside the image window and the physical grid (R167). -/
def State.inRange (s : State) : Bool :=
  decide (s.pxX.toNat < s.width.toNat) && decide (s.pxX.toNat < s.xmax.toNat)
    && decide (s.pxY.toNat < s.height.toNat) && decide (s.pxY.toNat < s.ymax.toNat)

/-- The physical grid has a cell at column `x`, row `y` (R39, R60). -/
def State.cellExists (s : State) (x y : Nat) : Bool := decide (x < s.xmax.toNat) && decide (y < s.ymax.toNat)

/-- The kernel matrix, row by row, each weight an `s8` (R38). -/
def kernelRows : List (List Byte) :=
  [[0x00#8, 0xFF#8, 0x00#8], [0xFF#8, 0x05#8, 0xFF#8], [0x00#8, 0xFF#8, 0x00#8]]

/-- `K[r][c]`, for `r` and `c` in 0 .. 2 (R38). -/
def kernel (r c : Nat) : Byte := (kernelRows.getD r []).getD c 0

/-- What the register at index `16 + n` shows, for `n` in 0 .. 8: `sext_32(K[n / 3][n mod 3])` (R32). -/
def kernelWord (n : Nat) : Word := (kernel (n / 3) (n % 3)).signExtend 32

/-- The four bytes of a register at rising addresses, where a platform serialises it: little-endian (R64). -/
def registerBytes (w : Word) : List Byte :=
  [w.extractLsb' 0 8, w.extractLsb' 8 8, w.extractLsb' 16 8, w.extractLsb' 24 8]

end Sys2Proof.Machine
end

