-- ==== Sys2Proof/Machine/Ops.lean ====
section
/-! DEFINITION. The shared operations: one grid's memory, the refusal of an operation (R181), the steps START (R163) and
JOIN (R165), a worker's cursor (R33), and reset (R200). -/

namespace Sys2Proof.Machine

/-- The key of the cell at column `x`, row `y`: keys rise row by row, `x` fastest (log 8). -/
def cellKey (x y : Nat) : Nat := y * 65536 + x

/-- The value listed under a key. -/
def lookupCell {α : Type} : List (Nat × α) → Nat → Option α
  | [], _ => none
  | (k', v) :: rest, k => if k' = k then some v else lookupCell rest k

/-- The list with a value put under a key, keys kept rising. -/
def insertCell {α : Type} (k : Nat) (v : α) : List (Nat × α) → List (Nat × α)
  | [] => [(k, v)]
  | (k', v') :: rest =>
    if k < k' then (k, v) :: (k', v') :: rest
    else if k = k' then (k, v) :: rest
    else (k', v') :: insertCell k v rest

/-- The list without a key. -/
def eraseCell {α : Type} (k : Nat) : List (Nat × α) → List (Nat × α)
  | [] => []
  | (k', v') :: rest => if k = k' then rest else (k', v') :: eraseCell k rest

/-- The keys rise strictly. -/
def risingKeys {α : Type} : List (Nat × α) → Bool
  | [] => true
  | [_] => true
  | (k, _) :: (k', v') :: rest => decide (k < k') && risingKeys ((k', v') :: rest)

/-- What a cell holds that is not listed: `fill`, or what it held after reset (log 2). -/
def Memory.unlisted {α : Type} (m : Memory α) (atReset : Nat → α) (k : Nat) : α := m.fill.getD (atReset k)

/-- The content of a cell. -/
def Memory.get {α : Type} (m : Memory α) (atReset : Nat → α) (k : Nat) : α :=
  (lookupCell m.cells k).getD (m.unlisted atReset k)

/-- Write a cell. Writing the value the grid was filled with removes the entry (log 8). -/
def Memory.set {α : Type} [DecidableEq α] (m : Memory α) (k : Nat) (v : α) : Memory α :=
  { m with cells := if m.fill = some v then eraseCell k m.cells else insertCell k v m.cells }

/-- A grid of which every cell holds `v` (R163). -/
def Memory.filled {α : Type} (v : α) : Memory α := ⟨some v, []⟩

/-- The canonical form: keys rise strictly and no entry holds the value an unlisted cell was filled with. -/
def Memory.wf {α : Type} [DecidableEq α] (m : Memory α) : Bool :=
  risingKeys m.cells && m.cells.all fun e => decide (m.fill ≠ some e.2)

/-- `SRC(x, y)` (R9). -/
def State.srcAt (s : State) (x y : Nat) : Sample := s.src.get (Config.resetSample s.epoch) (cellKey x y)

/-- `GRAY(x, y)` (R9). -/
def State.grayAt (s : State) (x y : Nat) : Byte := s.gray.get (Config.resetGray s.epoch) (cellKey x y)

/-- `RGBA(x, y)` (R9). -/
def State.rgbaAt (s : State) (x y : Nat) : Pixel := s.rgba.get (Config.resetPixel s.epoch) (cellKey x y)

/-- `SRC(x, y) <- p` (R9). -/
def State.writeSrc (s : State) (x y : Nat) (p : Sample) : State := { s with src := s.src.set (cellKey x y) p }

/-- `GRAY(x, y) <- g` (R9). -/
def State.writeGray (s : State) (x y : Nat) (g : Byte) : State := { s with gray := s.gray.set (cellKey x y) g }

/-- `RGBA(x, y) <- c` (R9). -/
def State.writeRgba (s : State) (x y : Nat) (c : Pixel) : State := { s with rgba := s.rgba.set (cellKey x y) c }

/-- Refusing an operation: its flag is raised and nothing else changes. This is all an error does; there is no trap to
enter and none to return from (R181, R189, R190). -/
def State.refuse (e : ErrFlag) (s : State) : State := { s with status := s.status.raise e }

/-- `any`: the next free value and the state that has drawn it (R9, U10, log 6). -/
def State.drawAny (s : State) : Word × State := (Config.anyRead s.draws, { s with draws := s.draws + 1 })

/-- What START loads into worker `i` of the call's `N` workers (R163). -/
def startedWorker (x : Xform) (W H N i : Nat) : Worker :=
  let rows := band H N i
  let b := loopBounds x W H rows.1 rows.2
  { bstart := BitVec.ofNat 16 rows.1
    bend := BitVec.ofNat 16 rows.2
    cx := BitVec.ofNat 16 b.xlo
    cy := BitVec.ofNat 16 b.ylo
    fin := b.isEmpty }

/-- The workers at START: those of the call loaded, the others finished (R163). -/
def startWorkers (x : Xform) (W H N : Nat) (ws : List Worker) : List Worker :=
  ws.mapIdx fun i w => if i < N then startedWorker x W H N i else { w with fin := true }

/-- The START step (R163). -/
def State.start (x : Xform) (e : Executor) (s : State) : State :=
  let n := s.workerCount e
  { s with
    status := s.status.started
    lxform := x
    lexec := e
    wl := s.width
    hl := s.height
    neff := n
    gray := match x with
      | .luminance => Memory.filled 0
      | .convolution => s.gray
    rgba := match x with
      | .luminance => s.rgba
      | .convolution => Memory.filled Pixel.zero
    workers := startWorkers x s.width.toNat s.height.toNat n.toNat s.workers }

/-- A legal command is offered: refused during a call, then on illegal dimensions, else started (R162, R188). -/
def State.offer (x : Xform) (e : Executor) (s : State) : State :=
  if s.status.busy then s.refuse .busy
  else if s.dimsLegal then s.start x e
  else s.refuse .dim

/-- An illegal command word is offered (R162, R182, R183). -/
def State.offerIllegal (s : State) : State := if s.status.busy then s.refuse .busy else s.refuse .op

/-- The end of a WORKER step: the cursor moves on, row by row, x fastest (R33). -/
def Worker.advance (b : Bounds) (w : Worker) : Worker :=
  let moved :=
    if w.cx.toNat + 1 < b.xhi then { w with cx := w.cx + 1 }
    else { w with cx := BitVec.ofNat 16 b.xlo, cy := w.cy + 1 }
  if b.yhi ≤ moved.cy.toNat then { moved with fin := true } else moved

/-- Worker `i`, whose registers are `w`, advances its cursor (R33). -/
def State.advanceWorker (s : State) (i : Nat) (w : Worker) : State :=
  { s with workers := s.workers.set i (w.advance (s.boundsOf w)) }

/-- JOIN is enabled: a call runs and every worker has finished (R165). -/
def State.joinReady (s : State) : Bool := s.status.busy && s.workers.all fun w => w.fin

/-- The JOIN step (R165). -/
def State.join (s : State) : State := { s with status := s.status.joined }

/-- A reset of the running engine (R200, R201): the state of R45 for the engine's own parameters, every grid cell
unspecified anew. The outside world is not reset (log 4, log 9). -/
def State.resetEngine (s : State) : State :=
  { State.atReset s.nwork s.xmax s.ymax (s.epoch + 1) with
    program := s.program
    replies := s.replies
    resetPulses := s.resetPulses
    schedule := s.schedule
    draws := s.draws }

end Sys2Proof.Machine
end

