-- ==== Sys2Proof/Machine/Grayscale.lean ====
section
/-! DEFINITION. The luminance-to-grayscale converter: its pixel function, its WORKER step, its result and its two
commands (R120 - R128). -/

namespace Sys2Proof.Machine

/-- `Luminance(s)`: the high byte of the red component (R120). -/
def luminance (p : Sample) : Byte := (p.r >>> 8).setWidth 8

/-- A gray cell viewed as colour: R = G = B. No alpha is defined (R127). -/
def grayAsRGB (g : Byte) : Byte × Byte × Byte := (g, g, g)

/-- `GrayOut(S, W, H)` at column `x`, row `y` (R122). -/
def grayOut (S : Nat → Nat → Sample) (W H x y : Nat) : Byte := if x < W ∧ y < H then luminance (S x y) else 0

/-- The WORKER step of a GRAY command, for worker `i` with registers `w` (R123). -/
def grayWorkerStep (i : Nat) (w : Worker) (s : State) : Host.Outcome State Fault Refusal :=
  let x := w.cx.toNat
  let y := w.cy.toNat
  if s.cellExists x y then .next ((s.writeGray x y (luminance (s.srcAt x y))).advanceWorker i w)
  else .fault .cellOutsideGrid

/-- GRAY.SEQ offered to the engine (R124, R162). -/
def execGraySeq (s : State) : Host.Outcome State Fault Refusal := .next (s.offer .luminance .sequential)

/-- GRAY.PAR offered to the engine (R125, R162). -/
def execGrayPar (s : State) : Host.Outcome State Fault Refusal := .next (s.offer .luminance .parallel)

end Sys2Proof.Machine
end

