-- ==== Sys2Proof/Machine/Sharpen.lean ====
section
/-! DEFINITION. The 3x3 convolution engine: its neighbourhood and pixel function, its WORKER step, its result and its
two commands (R135 - R150). -/

namespace Sys2Proof.Machine

/-- The neighbourhood of the centre `(x, y)`: entry `[r][c]` is the sample at `(x + c - 1, y + r - 1)`. It is meant for
interior centres only, `1 ≤ x` and `1 ≤ y` (R135). -/
def neighbourhood (S : Nat → Nat → Sample) (x y : Nat) (r c : Nat) : Sample := S (x + c - 1) (y + r - 1)

/-- The nine entries of a 3 x 3 matrix, row by row (R136). -/
def matrixEntries : List (Nat × Nat) := [(0, 0), (0, 1), (0, 2), (1, 0), (1, 1), (1, 2), (2, 0), (2, 1), (2, 2)]

/-- One running sum, an `s32`: the weights sign-extended, the components zero-extended (R136). -/
def laneSum (K : Nat → Nat → Byte) (lane : Nat → Nat → Half) : Word :=
  matrixEntries.foldl (fun sum e => sum + (K e.1 e.2).signExtend 32 * (lane e.1 e.2).setWidth 32) 0

/-- `clamp(v, lo, hi)` (R8). -/
def clamp (v lo hi : Int) : Int := if v < lo then lo else if hi < v then hi else v

/-- `Reduce(sum)`: arithmetic shift right by 8, then clamp to 0 .. 255 (R137). -/
def reduceSum (sum : Word) : Byte := BitVec.ofInt 8 (clamp (sum.sshiftRight 8).toInt 0 255)

/-- One colour lane of the convolution (R149). -/
def convolveLane (K : Nat → Nat → Byte) (lane : Nat → Nat → Half) : Byte := reduceSum (laneSum K lane)

/-- `Convolve3x3(nb, K)`: the three outputs R, G, B (R136). -/
def convolve (K : Nat → Nat → Byte) (nb : Nat → Nat → Sample) : Byte × Byte × Byte :=
  (convolveLane K fun r c => (nb r c).r, convolveLane K fun r c => (nb r c).g, convolveLane K fun r c => (nb r c).b)

/-- The cell a SHARP command writes at the centre `(x, y)`: the convolution with alpha 255 (R139, R142). -/
def sharpCell (S : Nat → Nat → Sample) (x y : Nat) : Pixel :=
  let out := convolve kernel (neighbourhood S x y)
  ⟨out.1, out.2.1, out.2.2, 255⟩

/-- `SharpOut(S, W, H)` at column `x`, row `y`: the interior convolved, everything else zero (R141). -/
def sharpOut (S : Nat → Nat → Sample) (W H x y : Nat) : Pixel :=
  if 1 ≤ x ∧ x + 1 < W ∧ 1 ≤ y ∧ y + 1 < H then sharpCell S x y else Pixel.zero

/-- All nine cells of the neighbourhood of `(x, y)` are cells of the physical grid (R62). -/
def State.neighboursExist (s : State) (x y : Nat) : Bool :=
  decide (1 ≤ x) && decide (1 ≤ y) && s.cellExists (x - 1) (y - 1) && s.cellExists (x + 1) (y + 1)

/-- The WORKER step of a SHARP command, for worker `i` with registers `w` (R142). -/
def sharpWorkerStep (i : Nat) (w : Worker) (s : State) : Host.Outcome State Fault Refusal :=
  let x := w.cx.toNat
  let y := w.cy.toNat
  if s.neighboursExist x y then .next ((s.writeRgba x y (sharpCell s.srcAt x y)).advanceWorker i w)
  else .fault .cellOutsideGrid

/-- SHARP.SEQ offered to the engine (R143, R162). -/
def execSharpSeq (s : State) : Host.Outcome State Fault Refusal := .next (s.offer .convolution .sequential)

/-- SHARP.PAR offered to the engine (R144, R162). -/
def execSharpPar (s : State) : Host.Outcome State Fault Refusal := .next (s.offer .convolution .parallel)

end Sys2Proof.Machine
end

