-- ==== Sys2Proof/Machine/Dispatch.lean ====
section
/-! DEFINITION. One meaning per command. -/

namespace Sys2Proof.Machine

def exec (i : Instr) (s : State) : Host.Outcome State Fault Refusal :=
  match i with
  | .graySeq => Sys2Proof.Machine.execGraySeq s
  | .sharpSeq => Sys2Proof.Machine.execSharpSeq s
  | .grayPar => Sys2Proof.Machine.execGrayPar s
  | .sharpPar => Sys2Proof.Machine.execSharpPar s

end Sys2Proof.Machine
end

