-- ==== Sys2Proof/Machine/HostPort.lean ====
section
/-! DEFINITION. The host port: HostRead, HostWrite (R160 - R172) and the host's own step (R97, R98). -/

namespace Sys2Proof.Machine

/-- A refused read: the flag is raised and the value is free (R181, U10). -/
def State.refuseRead (e : ErrFlag) (s : State) : Word × State := (s.refuse e).drawAny

/-- HostRead of SRC_LO or SRC_HI, `view` picking the half (R167). -/
def readSource (view : Sample → Word) (s : State) : Word × State :=
  if s.inRange then (view (s.srcAt s.pxX.toNat s.pxY.toNat), s) else s.refuseRead .range

/-- HostRead of GRAY_DATA (R169). -/
def readGrayData (s : State) : Word × State :=
  if s.status.busy then s.refuseRead .lock
  else if s.inRange then ((s.grayAt s.pxX.toNat s.pxY.toNat).setWidth 32, s)
  else s.refuseRead .range

/-- HostRead of RGBA_DATA (R170). -/
def readRgbaData (s : State) : Word × State :=
  if s.status.busy then s.refuseRead .lock
  else if s.inRange then ((s.rgbaAt s.pxX.toNat s.pxY.toNat).word, s)
  else s.refuseRead .range

/-- `HostRead(idx)`: the value and the state after it (R160, R161, R172). -/
def hostRead (idx : BitVec 5) (s : State) : Word × State :=
  match idx.toNat with
  | 0 => (0, s)
  | 1 => (s.status.word, s)
  | 2 => (s.width.setWidth 32, s)
  | 3 => (s.height.setWidth 32, s)
  | 4 => (s.nwork.setWidth 32, s)
  | 5 => (s.pxX.setWidth 32, s)
  | 6 => (s.pxY.setWidth 32, s)
  | 7 => readSource Sample.loWord s
  | 8 => readSource Sample.hiWord s
  | 9 => readGrayData s
  | 10 => readRgbaData s
  | 11 => (s.ymax ++ s.xmax, s)
  | n => if 16 ≤ n ∧ n ≤ 24 then (kernelWord (n - 16), s) else (0, s.refuse .addr)

/-- HostWrite of CMD: a command word is offered, decoded and, when legal, executed (R162). -/
def writeCommand (w : Word) (s : State) : Host.Outcome State Fault Refusal :=
  match decode w with
  | .ok i => exec i s
  | .error _ => .next s.offerIllegal

/-- HostWrite of SRC_LO or SRC_HI, `put` replacing the half (R168). -/
def writeSource (put : Sample → Sample) (s : State) : State :=
  if s.status.busy then s.refuse .lock
  else if s.inRange then s.writeSrc s.pxX.toNat s.pxY.toNat (put (s.srcAt s.pxX.toNat s.pxY.toNat))
  else s.refuse .range

/-- HostWrite of WIDTH (R166). -/
def writeWidth (v : Word) (s : State) : State :=
  if s.status.busy then s.refuse .lock else { s with width := v.extractLsb' 0 16 }

/-- HostWrite of HEIGHT (R166). -/
def writeHeight (v : Word) (s : State) : State :=
  if s.status.busy then s.refuse .lock else { s with height := v.extractLsb' 0 16 }

/-- `HostWrite(idx, v)` (R160, R161, R172). -/
def hostWrite (idx : BitVec 5) (v : Word) (s : State) : Host.Outcome State Fault Refusal :=
  match idx.toNat with
  | 0 => writeCommand v s
  | 2 => .next (writeWidth v s)
  | 3 => .next (writeHeight v s)
  | 5 => .next { s with pxX := v.extractLsb' 0 16 }
  | 6 => .next { s with pxY := v.extractLsb' 0 16 }
  | 7 => .next (writeSource (fun p => p.withLo v) s)
  | 8 => .next (writeSource (fun p => p.withHi v) s)
  | _ => .next (s.refuse .addr)

/-- A read by the host's program: its value is recorded among the replies (R97, log 4). -/
def replyTo (idx : BitVec 5) (s : State) : State :=
  let answer := hostRead idx s
  { answer.2 with replies := (idx, answer.1) :: answer.2.replies }

/-- One step of the host: its next operation. WAIT reads STATUS and stands first again while it finds BUSY = 1 (R98). -/
def hostStep (s : State) : Host.Outcome State Fault Refusal :=
  match s.program with
  | [] => .next s
  | .write idx v :: rest => hostWrite idx v { s with program := rest }
  | .read idx :: rest => .next (replyTo idx { s with program := rest })
  | .wait :: rest => .next (replyTo 1 { s with program := if s.status.busy then .wait :: rest else rest })

end Sys2Proof.Machine
end

