-- ==== Sys2Proof/Machine/Schedule.lean ====
section
/-! DEFINITION. Which agent takes the next step (R11, R164) and what its step is. -/

namespace Sys2Proof.Machine

/-- Worker `i` has a step: a call runs and `FIN[i] = 0` (R164). -/
def State.workerReady (s : State) (i : Nat) : Bool :=
  s.status.busy && match s.workers[i]? with
    | some w => !w.fin
    | none => false

/-- The agent has a step. -/
def State.enabled (s : State) : Agent → Bool
  | .host => !s.program.isEmpty
  | .sequencer => s.joinReady
  | .worker i => s.workerReady i
  | .resetLine => s.resetPulses != 0

/-- Every agent that could have a step: workers exist only during a call (R11). -/
def State.agents (s : State) : List Agent :=
  .host :: .resetLine :: .sequencer
    :: if s.status.busy then (List.range s.workers.length).map Agent.worker else []

/-- The first scheduled agent that is enabled, and the schedule after it; the entries before it are dropped. -/
def State.firstScheduled (s : State) : List Agent → Option (Agent × List Agent)
  | [] => none
  | a :: rest => if s.enabled a then some (a, rest) else s.firstScheduled rest

/-- The agent that moves and the state with the choice made: as the schedule says, else the one enabled agent, else a
free choice among the enabled (R164, U12, log 5). -/
def State.pick (s : State) : Option (Agent × State) :=
  match s.firstScheduled s.schedule with
  | some (a, rest) => some (a, { s with schedule := rest })
  | none =>
    match s.agents.filter s.enabled with
    | [] => none
    | [a] => some (a, { s with schedule := [] })
    | a :: b :: more =>
      some ((a :: b :: more).getD (Config.anyAgent s.draws % (more.length + 2)) a,
        { s with schedule := [], draws := s.draws + 1 })

/-- The WORKER step of worker `i`, by the latched transform (R164). -/
def workerStep (i : Nat) (s : State) : Host.Outcome State Fault Refusal :=
  match s.workers[i]? with
  | none => .next s
  | some w =>
    if s.workerReady i then
      match s.lxform with
      | .luminance => grayWorkerStep i w s
      | .convolution => sharpWorkerStep i w s
    else .next s

/-- The step of the agent that moves. An agent with nothing to do leaves the state as it is. -/
def agentStep (a : Agent) (s : State) : Host.Outcome State Fault Refusal :=
  match a with
  | .host => hostStep s
  | .sequencer => .next (if s.joinReady then s.join else s)
  | .worker i => workerStep i s
  | .resetLine => .next (State.resetEngine { s with resetPulses := s.resetPulses - 1 })

end Sys2Proof.Machine
end

