-- ==== Sys2Proof/Machine/Step.lean ====
section
/-! DEFINITION. One step of the machine, and the state in which the next step runs a given command. -/

namespace Sys2Proof.Machine

/-- One step: the agent that moves takes its step; with nobody enabled the engine idles (R11, R74, log 10). -/
def step (s : State) : Host.Outcome State Fault Refusal :=
  match s.pick with
  | none => .next s
  | some (a, t) => agentStep a t

/-- The state in which the host's next operation is a write of the given word to CMD and the host moves next (log 7). -/
def State.withFetchWord (s : State) (nbits w : Nat) : State :=
  { s with
    program := .write 0 (BitVec.ofNat 32 (w % 2 ^ nbits)) :: s.program
    schedule := .host :: s.schedule }

end Sys2Proof.Machine
end

