-- ==== Sys2Proof/Machine/HostProgram.lean ====
section
/-! DEFINITION. The host notation: register names as indices (R21), the pseudo-instructions (R98) and the host sequence
of one call (R204). -/

namespace Sys2Proof.Machine

/-- A command mnemonic on a line of its own: `WR CMD, <its word>` (R97). -/
def hostCommand (i : Instr) : List HostOp := [.write 0 (encode i)]

/-- `SETDIM w, h` (R98). -/
def setDim (w h : Word) : List HostOp := [.write 2 w, .write 3 h]

/-- `SEEK x, y` (R98). -/
def seek (x y : Word) : List HostOp := [.write 5 x, .write 6 y]

/-- `PUTPX x, y, r, g, b, a` (R98). -/
def putPx (x y : Word) (p : Sample) : List HostOp := seek x y ++ [.write 7 p.loWord, .write 8 p.hiWord]

/-- `GETSRC x, y` (R98). -/
def getSrc (x y : Word) : List HostOp := seek x y ++ [.read 7, .read 8]

/-- `GETGRAY x, y` (R98). -/
def getGray (x y : Word) : List HostOp := seek x y ++ [.read 9]

/-- `GETRGBA x, y` (R98). -/
def getRgba (x y : Word) : List HostOp := seek x y ++ [.read 10]

/-- `RUN <cmd>` (R98). -/
def runCommand (i : Instr) : List HostOp := hostCommand i ++ [.wait]

/-- The host's read of one result pixel after a command (R204, step 5). -/
def getResult (i : Instr) (x y : Word) : List HostOp :=
  match i.xform with
  | .luminance => getGray x y
  | .convolution => getRgba x y

/-- The host sequence of one call on an image given as coordinates and samples (R204). -/
def callSequence (i : Instr) (w h : Word) (image : List (Word × Word × Sample)) : List HostOp :=
  setDim w h ++ image.flatMap (fun e => putPx e.1 e.2.1 e.2.2) ++ runCommand i
    ++ image.flatMap fun e => getResult i e.1 e.2.1

end Sys2Proof.Machine
end

