-- ==== Sys2Proof/Safety.lean ====
section
/-! DEFINITION. What counts as a safe state: the invariants every reachable state satisfies (R44), the work a call has
left (R164), what a call is (R209), and weak fairness (R207). -/

namespace Sys2Proof.Machine

/-- The registers of worker `i`. -/
def State.worker (s : State) (i : Nat) : Worker := s.workers.getD i Worker.reset

/-- The workers of the current call, 0 .. NEFF-1 (R34). -/
def State.callWorkers (s : State) : List Worker := s.workers.take s.neff.toNat

/-- The worker has processed the pixel at column `x`, row `y`: it lies within its bounds and before its cursor in
row-major order, or the worker has finished (R33, R44). -/
def Worker.processed (b : Bounds) (w : Worker) (x y : Nat) : Bool :=
  b.contains x y
    && (w.fin || decide (y < w.cy.toNat) || (decide (y = w.cy.toNat) && decide (x < w.cx.toNat)))

/-- Some worker of the call has processed the pixel. -/
def State.cellProcessed (s : State) (x y : Nat) : Bool :=
  s.callWorkers.any fun w => w.processed (s.boundsOf w) x y

/-- The parameters are legal (R6), there is one set of worker registers per worker (R20f), and BUSY and DONE are not
both 1 (R44 a). -/
abbrev State.ControlInv (s : State) : Prop :=
  1 ≤ s.nwork.toNat ∧ 1 ≤ s.xmax.toNat ∧ 1 ≤ s.ymax.toNat ∧ s.workers.length = s.nwork.toNat
    ∧ ¬(s.status.busy = true ∧ s.status.done = true)

/-- Every listed cell is a cell of the physical grid (R39, R60). -/
abbrev Memory.Within {α : Type} (m : Memory α) (xmax ymax : Half) : Prop :=
  ∀ e ∈ m.cells, e.1 % 65536 < xmax.toNat ∧ e.1 / 65536 < ymax.toNat

/-- The grids are in canonical form and list only cells that exist; only the destination grids are ever filled, with
zeros (R61, R163). -/
abbrev State.GridsInv (s : State) : Prop :=
  s.src.wf = true ∧ s.gray.wf = true ∧ s.rgba.wf = true
    ∧ s.src.Within s.xmax s.ymax ∧ s.gray.Within s.xmax s.ymax ∧ s.rgba.Within s.xmax s.ymax
    ∧ s.src.fill = none ∧ (s.gray.fill = none ∨ s.gray.fill = some 0)
    ∧ (s.rgba.fill = none ∨ s.rgba.fill = some Pixel.zero)

/-- The latched configuration during a call (R34, R44 b). -/
abbrev State.LatchInv (s : State) : Prop :=
  s.wl = s.width ∧ s.hl = s.height ∧ 1 ≤ s.wl.toNat ∧ s.wl.toNat ≤ s.xmax.toNat ∧ 1 ≤ s.hl.toNat
    ∧ s.hl.toNat ≤ s.ymax.toNat ∧ s.neff = s.workerCount s.lexec

/-- Worker `i` of a call holds its band, its cursor is within its bounds until it finishes, and a worker without a band
is finished (R35, R36, R44 c, R44 d). -/
abbrev State.WorkersInv (s : State) : Prop :=
  (∀ i < s.neff.toNat, (s.worker i).bstart.toNat = (band s.hl.toNat s.neff.toNat i).1
      ∧ (s.worker i).bend.toNat = (band s.hl.toNat s.neff.toNat i).2
      ∧ ((s.worker i).fin = false →
          (s.boundsOf (s.worker i)).contains (s.worker i).cx.toNat (s.worker i).cy.toNat = true))
    ∧ ∀ i < s.nwork.toNat, s.neff.toNat ≤ i → (s.worker i).fin = true

/-- During a call every processed cell of the target grid holds its final value and every other cell is zero
(R44 e). -/
abbrev State.TargetInv (s : State) : Prop :=
  (s.lxform = .luminance → s.gray.fill = some 0
      ∧ ∀ x < s.xmax.toNat, ∀ y < s.ymax.toNat,
          s.grayAt x y = if s.cellProcessed x y then luminance (s.srcAt x y) else 0)
    ∧ (s.lxform = .convolution → s.rgba.fill = some Pixel.zero
      ∧ ∀ x < s.xmax.toNat, ∀ y < s.ymax.toNat,
          s.rgbaAt x y = if s.cellProcessed x y then sharpCell s.srcAt x y else Pixel.zero)

/-- The invariant of the machine (R44). -/
abbrev State.Inv (s : State) : Prop :=
  s.ControlInv ∧ s.GridsInv ∧ (s.status.busy = true → s.LatchInv ∧ s.WorkersInv ∧ s.TargetInv)

/-- The conditions on which a legal command is accepted (R162). -/
abbrev State.Accepts (s : State) : Prop :=
  s.status.busy = false ∧ 1 ≤ s.width.toNat ∧ s.width.toNat ≤ s.xmax.toNat ∧ 1 ≤ s.height.toNat
    ∧ s.height.toNat ≤ s.ymax.toNat

/-- The number of pixels a worker has still to process. -/
def Worker.remaining (b : Bounds) (w : Worker) : Nat :=
  if w.fin then 0 else (b.xhi - w.cx.toNat) + (b.yhi - (w.cy.toNat + 1)) * (b.xhi - b.xlo)

/-- The number of WORKER steps the current call has left (R164). -/
def State.remaining (s : State) : Nat := (s.callWorkers.map fun w => w.remaining (s.boundsOf w)).sum

/-- The number of WORKER steps of a whole call of width `W` and height `H` (R164, R208). -/
def callSteps (x : Xform) (W H : Nat) : Nat :=
  match x with
  | .luminance => W * H
  | .convolution => (W - 2) * (H - 2)

/-- The agent that takes the next step, if any has one. -/
def State.mover (s : State) : Option Agent := s.pick.map Prod.fst

/-- `n` steps of the machine, each from a state in which the call still runs (R209). -/
def callRun : Nat → State → State → Prop
  | 0, s, t => s = t
  | n + 1, s, t => s.status.busy = true ∧ ∃ u, step s = .next u ∧ callRun n u t

/-- A run of one call from `s`, just after its START, to `t`, the state immediately after its JOIN (R209). A reset ends
a call without a JOIN and leaves DONE = 0 (R201). -/
def CallEndsAt (s t : State) : Prop :=
  ∃ n, callRun n s t ∧ t.status.busy = false ∧ t.status.done = true

/-- An infinite execution. -/
def Execution (σ : Nat → State) : Prop := ∀ n, step (σ n) = .next (σ (n + 1))

/-- The workers and the sequencer: the agents weak fairness speaks of (R207). -/
def Agent.isEngine : Agent → Bool
  | .host => false
  | .sequencer => true
  | .worker _ => true
  | .resetLine => false

/-- Weak fairness to the workers and the sequencer: one that stays enabled moves at some time (R207). -/
def WeaklyFair (σ : Nat → State) : Prop :=
  ∀ a : Agent, a.isEngine = true → ∀ n, (∀ m, n ≤ m → (σ m).enabled a = true) →
    ∃ m, n ≤ m ∧ (σ m).mover = some a

end Sys2Proof.Machine
end

