-- ==== Sys2Proof/Certificates/Slice0/Obligations.lean ====
section
/-! DEFINITION. The statements for the provers, in the order of OBLIGATIONS.json. -/

open Sys2Proof Sys2Proof.Machine

/-! Encoding -/

/-- R93: the four command words, and the nearest illegal ones (R94). -/
def Obligations.CommandWordsOfTheOpcodeMap : Prop :=
  decode 0b00000000000000000000000000000000#32 = .ok .graySeq
    ∧ decode 0b00000000000000000000000000000001#32 = .ok .sharpSeq
    ∧ decode 0b00000000000000000000000000000010#32 = .ok .grayPar
    ∧ decode 0b00000000000000000000000000000011#32 = .ok .sharpPar
    ∧ decode 0x00000004#32 = .error .zeroFieldNotZero ∧ decode 0x80000000#32 = .error .zeroFieldNotZero

/-- R91: a word with `w[31:2] != 0` is illegal; any other decodes to the command whose XFORM is bit 0 and whose EXEC is
bit 1. -/
def Obligations.DecodingReadsTheFormat : Prop :=
  ∀ w : Word,
    (w.extractLsb' 2 30 ≠ 0 → decode w = .error .zeroFieldNotZero)
      ∧ (w.extractLsb' 2 30 = 0 → ∃ i, decode w = .ok i
          ∧ (i.xform = .convolution ↔ w.getLsbD 0 = true) ∧ (i.executor = .parallel ↔ w.getLsbD 1 = true))

/-- Decode and encode agree: every well-formed command decodes from its word, and a word that decodes to a command is
that command's word. -/
def Obligations.DecodeAndEncodeAgree : Prop :=
  (∀ i : Instr, i.wellFormed = true → decode (encode i) = .ok i)
    ∧ ∀ (w : Word) (i : Instr), decode w = .ok i → encode i = w ∧ i.wellFormed = true

/-! The step and the fetch of a command -/

/-- A step in which the host moves and its next operation writes a word to CMD that decodes to a well-formed command is
`exec` of that command, with the operation taken off the program; the choice of the agent touches the schedule and
the count of free draws alone. -/
def Obligations.StepRunsTheDecodedCommand : Prop :=
  ∀ (s t : State) (w : Word) (rest : List HostOp) (i : Instr),
    s.pick = some (.host, t) → s.program = .write 0 w :: rest → decode w = .ok i → i.wellFormed = true →
      step s = exec i { t with program := rest } ∧ t = { s with schedule := t.schedule, draws := t.draws }

/-- R183: an illegal word written to CMD while idle raises ERR_OP and does nothing else. -/
def Obligations.IllegalWordRaisesErrOp : Prop :=
  ∀ (w : Word) (s : State), s.status.busy = false → w.extractLsb' 2 30 ≠ 0 →
    hostWrite 0 w s = .next { s with status := { s.status with errOp := true } }

/-- R182: any word written to CMD during a call raises ERR_BUSY and does nothing else; so does each command offered. -/
def Obligations.CommandDuringACallRaisesErrBusy : Prop :=
  ∀ (s : State), s.status.busy = true →
    (∀ w, hostWrite 0 w s = .next { s with status := { s.status with errBusy := true } })
      ∧ ∀ i, exec i s = .next { s with status := { s.status with errBusy := true } }

/-- R184: a legal command offered while idle with WIDTH or HEIGHT out of range raises ERR_DIM and does nothing else; at
every accepted START the latched dimensions are in range; dimensions in range are accepted, without an interior too. -/
def Obligations.BadDimensionsRaiseErrDim : Prop :=
  (∀ (i : Instr) (s : State), s.status.busy = false →
      (s.width = 0 ∨ s.xmax < s.width ∨ s.height = 0 ∨ s.ymax < s.height) →
        exec i s = .next { s with status := { s.status with errDim := true } }
          ∧ hostWrite 0 (encode i) s = .next { s with status := { s.status with errDim := true } })
    ∧ (∀ (i : Instr) (s t : State), s.status.busy = false → exec i s = .next t → t.status.busy = true →
        1 ≤ t.wl.toNat ∧ t.wl.toNat ≤ t.xmax.toNat ∧ 1 ≤ t.hl.toNat ∧ t.hl.toNat ≤ t.ymax.toNat)
    ∧ ∀ (i : Instr) (s : State), s.Accepts →
        ∃ t, exec i s = .next t ∧ hostWrite 0 (encode i) s = .next t
          ∧ t.status = { s.status with busy := true, done := false }

/-! The four commands: START -/

/-- R124, START: GRAY.SEQ accepted loads worker 0 with the band (0, HEIGHT), finishes every other worker, zero-fills
GRAY and sets BUSY; nothing else changes. -/
def Obligations.GraySeqStarts : Prop :=
  ∀ s : State, s.Accepts → s.ControlInv →
    ∃ t, exec .graySeq s = .next t
      ∧ t = { s with status := { s.status with busy := true, done := false }, lxform := .luminance,
                     lexec := .sequential, wl := s.width, hl := s.height, neff := 1, gray := t.gray,
                     workers := t.workers }
      ∧ (∀ x < s.xmax.toNat, ∀ y < s.ymax.toNat, t.grayAt x y = 0)
      ∧ t.workers.length = s.workers.length
      ∧ t.worker 0 = ⟨0, s.height, 0, 0, false⟩
      ∧ ∀ i < s.nwork.toNat, 1 ≤ i → t.worker i = { s.worker i with fin := true }

/-- R125, START: GRAY.PAR accepted loads each of the NWORK workers with its band; a worker with an empty band starts
finished. -/
def Obligations.GrayParStarts : Prop :=
  ∀ s : State, s.Accepts → s.ControlInv →
    ∃ t, exec .grayPar s = .next t
      ∧ t = { s with status := { s.status with busy := true, done := false }, lxform := .luminance,
                     lexec := .parallel, wl := s.width, hl := s.height, neff := s.nwork, gray := t.gray,
                     workers := t.workers }
      ∧ (∀ x < s.xmax.toNat, ∀ y < s.ymax.toNat, t.grayAt x y = 0)
      ∧ t.workers.length = s.workers.length
      ∧ ∀ i < s.nwork.toNat, ∃ w, t.workers[i]? = some w
          ∧ (w.bstart.toNat, w.bend.toNat) = band s.height.toNat s.nwork.toNat i
          ∧ w.cx = 0 ∧ w.cy = w.bstart ∧ (w.fin = true ↔ w.bend.toNat ≤ w.bstart.toNat)

/-- R143, START: SHARP.SEQ accepted loads worker 0 with the band (0, HEIGHT) and the cursor (1, 1), finished at once
when WIDTH or HEIGHT is below 3, finishes every other worker, zero-fills RGBA and sets BUSY; nothing else changes. -/
def Obligations.SharpSeqStarts : Prop :=
  ∀ s : State, s.Accepts → s.ControlInv →
    ∃ t, exec .sharpSeq s = .next t
      ∧ t = { s with status := { s.status with busy := true, done := false }, lxform := .convolution,
                     lexec := .sequential, wl := s.width, hl := s.height, neff := 1, rgba := t.rgba,
                     workers := t.workers }
      ∧ (∀ x < s.xmax.toNat, ∀ y < s.ymax.toNat, t.rgbaAt x y = ⟨0, 0, 0, 0⟩)
      ∧ t.workers.length = s.workers.length
      ∧ t.worker 0 = ⟨0, s.height, 1, 1, decide (s.width.toNat < 3 ∨ s.height.toNat < 3)⟩
      ∧ ∀ i < s.nwork.toNat, 1 ≤ i → t.worker i = { s.worker i with fin := true }

/-- R144, START: SHARP.PAR accepted loads each of the NWORK workers with its unclipped band and its cursor at the first
interior row of it; a worker with no interior pixel starts finished. -/
def Obligations.SharpParStarts : Prop :=
  ∀ s : State, s.Accepts → s.ControlInv →
    ∃ t, exec .sharpPar s = .next t
      ∧ t = { s with status := { s.status with busy := true, done := false }, lxform := .convolution,
                     lexec := .parallel, wl := s.width, hl := s.height, neff := s.nwork, rgba := t.rgba,
                     workers := t.workers }
      ∧ (∀ x < s.xmax.toNat, ∀ y < s.ymax.toNat, t.rgbaAt x y = ⟨0, 0, 0, 0⟩)
      ∧ t.workers.length = s.workers.length
      ∧ ∀ i < s.nwork.toNat, ∃ w, t.workers[i]? = some w
          ∧ (w.bstart.toNat, w.bend.toNat) = band s.height.toNat s.nwork.toNat i
          ∧ w.cx = 1 ∧ w.cy.toNat = max w.bstart.toNat 1
          ∧ (w.fin = true ↔ s.width.toNat < 3 ∨ min w.bend.toNat (s.height.toNat - 1) ≤ max w.bstart.toNat 1)

/-- The frame of GRAY.SEQ, SHARP.SEQ, GRAY.PAR and SHARP.PAR, accepted or not: no register but STATUS, no source cell
and no cell of the grid the command does not target changes, and no error flag is cleared. -/
def Obligations.CommandFrame : Prop :=
  ∀ (i : Instr) (s t : State), exec i s = .next t →
    t = { s with status := t.status, lxform := t.lxform, lexec := t.lexec, wl := t.wl, hl := t.hl, neff := t.neff,
                 gray := t.gray, rgba := t.rgba, workers := t.workers }
      ∧ (∀ x y, t.srcAt x y = s.srcAt x y)
      ∧ (i.xform = .luminance → ∀ x y, t.rgbaAt x y = s.rgbaAt x y)
      ∧ (i.xform = .convolution → ∀ x y, t.grayAt x y = s.grayAt x y)
      ∧ ∀ e, s.status.has e = true → t.status.has e = true

/-- R146: a sharpen command on an image with no interior starts with every worker finished, so that JOIN is enabled at
once and RGBA is all zero. -/
def Obligations.SharpWithoutInteriorJoinsAtOnce : Prop :=
  ∀ (i : Instr) (s : State), i.xform = .convolution → s.Accepts → s.ControlInv →
    (s.width.toNat < 3 ∨ s.height.toNat < 3) →
      ∃ t, exec i s = .next t ∧ t.joinReady = true ∧ (∀ j, t.workerReady j = false)
        ∧ (∀ x < s.xmax.toNat, ∀ y < s.ymax.toNat, t.rgbaAt x y = ⟨0, 0, 0, 0⟩)
        ∧ ∀ S x y, sharpOut S s.width.toNat s.height.toNat x y = ⟨0, 0, 0, 0⟩

/-! The four commands: the whole call -/

/-- GRAY.SEQ and GRAY.PAR complete: after START some schedule of exactly WIDTH * HEIGHT WORKER steps and one JOIN ends
the call with GRAY = GrayOut, DONE set, and SRC, RGBA and every register but STATUS as they were. -/
def Obligations.GrayCallCompletes : Prop :=
  ∀ (i : Instr) (s : State), i.xform = .luminance → s.Inv → s.Accepts →
    ∃ t, exec i s = .next t ∧ ∃ sched u,
      sched.length = s.width.toNat * s.height.toNat + 1
        ∧ Host.Core.run Sys2Proof.core sched.length { t with schedule := sched } = .next u
        ∧ u.status = { s.status with busy := false, done := true }
        ∧ (∀ x < s.xmax.toNat, ∀ y < s.ymax.toNat,
            u.grayAt x y = grayOut s.srcAt s.width.toNat s.height.toNat x y)
        ∧ (∀ x y, u.srcAt x y = s.srcAt x y ∧ u.rgbaAt x y = s.rgbaAt x y)
        ∧ u.width = s.width ∧ u.height = s.height ∧ u.pxX = s.pxX ∧ u.pxY = s.pxY ∧ u.nwork = s.nwork
        ∧ u.xmax = s.xmax ∧ u.ymax = s.ymax

/-- SHARP.SEQ and SHARP.PAR complete: after START some schedule of exactly max(WIDTH-2,0) * max(HEIGHT-2,0) WORKER steps
and one JOIN ends the call with RGBA = SharpOut, DONE set, and SRC, GRAY and every register but STATUS as they were. -/
def Obligations.SharpCallCompletes : Prop :=
  ∀ (i : Instr) (s : State), i.xform = .convolution → s.Inv → s.Accepts →
    ∃ t, exec i s = .next t ∧ ∃ sched u,
      sched.length = (s.width.toNat - 2) * (s.height.toNat - 2) + 1
        ∧ Host.Core.run Sys2Proof.core sched.length { t with schedule := sched } = .next u
        ∧ u.status = { s.status with busy := false, done := true }
        ∧ (∀ x < s.xmax.toNat, ∀ y < s.ymax.toNat,
            u.rgbaAt x y = sharpOut s.srcAt s.width.toNat s.height.toNat x y)
        ∧ (∀ x y, u.srcAt x y = s.srcAt x y ∧ u.grayAt x y = s.grayAt x y)
        ∧ u.width = s.width ∧ u.height = s.height ∧ u.pxX = s.pxX ∧ u.pxY = s.pxY ∧ u.nwork = s.nwork
        ∧ u.xmax = s.xmax ∧ u.ymax = s.ymax

/-- R122, R126: whatever the schedule, the worker count and the host do, a GRAY call that ends in its JOIN leaves
GRAY = GrayOut of the source and the dimensions at START, and SRC and RGBA unchanged. -/
def Obligations.EveryScheduleGivesGrayOut : Prop :=
  ∀ (i : Instr) (s t u : State), i.xform = .luminance → s.Inv → s.status.busy = false → exec i s = .next t →
    t.status.busy = true → CallEndsAt t u →
      (∀ x < s.xmax.toNat, ∀ y < s.ymax.toNat,
          u.grayAt x y = grayOut s.srcAt s.width.toNat s.height.toNat x y)
        ∧ ∀ x y, u.srcAt x y = s.srcAt x y ∧ u.rgbaAt x y = s.rgbaAt x y

/-- R141, R147: whatever the schedule, the worker count and the host do, a SHARP call that ends in its JOIN leaves
RGBA = SharpOut of the source and the dimensions at START, and SRC and GRAY unchanged. -/
def Obligations.EveryScheduleGivesSharpOut : Prop :=
  ∀ (i : Instr) (s t u : State), i.xform = .convolution → s.Inv → s.status.busy = false → exec i s = .next t →
    t.status.busy = true → CallEndsAt t u →
      (∀ x < s.xmax.toNat, ∀ y < s.ymax.toNat,
          u.rgbaAt x y = sharpOut s.srcAt s.width.toNat s.height.toNat x y)
        ∧ ∀ x y, u.srcAt x y = s.srcAt x y ∧ u.grayAt x y = s.grayAt x y

/-- R13, R126, R147: two engines that hold the same image, of the same dimensions and capacity, and run the same
transform give the same target grid, whatever their worker counts, executors, schedules and hosts. -/
def Obligations.ExecutorsAndWorkerCountsAgree : Prop :=
  ∀ (i j : Instr) (s s' t t' u u' : State), i.xform = j.xform → s.Inv → s'.Inv →
    s.width = s'.width → s.height = s'.height → s.xmax = s'.xmax → s.ymax = s'.ymax →
    (∀ x < s.width.toNat, ∀ y < s.height.toNat, s.srcAt x y = s'.srcAt x y) →
    s.status.busy = false → s'.status.busy = false → exec i s = .next t → exec j s' = .next t' →
    t.status.busy = true → t'.status.busy = true → CallEndsAt t u → CallEndsAt t' u' →
      ∀ x < s.xmax.toNat, ∀ y < s.ymax.toNat,
        match i.xform with
        | .luminance => u.grayAt x y = u'.grayAt x y
        | .convolution => u.rgbaAt x y = u'.rgbaAt x y

/-! The invariant and whole-machine rules -/

/-- The invariant holds at reset, whatever the parameters. -/
def Obligations.ResetMeetsTheMachineInvariant : Prop :=
  State.reset.Inv ∧ ∀ (n x y : Half) (k : Nat), n ≠ 0 → x ≠ 0 → y ≠ 0 → (State.atReset n x y k).Inv

/-- R45: the values the spec states for reset, read through the host port, in an engine of any parameters, and a command
offered to it: refused with ERR_DIM. -/
def Obligations.ResetValues : Prop :=
  State.reset = State.atReset Config.nwork Config.xmax Config.ymax 0
    ∧ ∀ (n x y : Half) (k : Nat) (s : State), s = State.atReset n x y k →
        s.status = ⟨false, false, false, false, false, false, false, false⟩
          ∧ (hostRead 1 s).1 = 0 ∧ (hostRead 2 s).1 = 0 ∧ (hostRead 3 s).1 = 0 ∧ (hostRead 4 s).1 = n.setWidth 32
          ∧ (hostRead 5 s).1 = 0 ∧ (hostRead 6 s).1 = 0 ∧ (hostRead 11 s).1 = y ++ x
          ∧ (List.range 9).map (fun j => (hostRead (BitVec.ofNat 5 (16 + j)) s).1)
              = [0x00000000#32, 0xFFFFFFFF#32, 0x00000000#32, 0xFFFFFFFF#32, 0x00000005#32, 0xFFFFFFFF#32,
                 0x00000000#32, 0xFFFFFFFF#32, 0x00000000#32]
          ∧ ∀ i : Instr, exec i s = .next { s with status := { s.status with errDim := true } }

/-- R44: every step, whichever agent takes it, keeps the invariant. -/
def Obligations.EveryStepKeepsTheMachineInvariant : Prop :=
  ∀ s t : State, s.Inv → step s = .next t → t.Inv

/-- R62, R180: in a state that meets the invariant no step faults and none is refused. -/
def Obligations.NoStepFaults : Prop :=
  ∀ s : State, s.Inv → ∃ t, step s = .next t

/-- R71: from START to JOIN no step but a reset changes the source grid, WIDTH, HEIGHT, NWORK or the latched
configuration (R77). -/
def Obligations.CallInputsAreConstant : Prop :=
  ∀ s t : State, s.status.busy = true → step s = .next t → s.mover ≠ some .resetLine →
    t.src = s.src ∧ (∀ x y, t.srcAt x y = s.srcAt x y) ∧ t.width = s.width ∧ t.height = s.height
      ∧ t.nwork = s.nwork ∧ t.lxform = s.lxform ∧ t.lexec = s.lexec ∧ t.wl = s.wl ∧ t.hl = s.hl ∧ t.neff = s.neff

/-- R26, R31: no step changes NWORK or CAPS. -/
def Obligations.ParametersNeverChange : Prop :=
  ∀ s t : State, step s = .next t → t.nwork = s.nwork ∧ t.xmax = s.xmax ∧ t.ymax = s.ymax

/-- R181: a flag that is 1 stays 1 in every step but a reset. -/
def Obligations.ErrorFlagsAreSticky : Prop :=
  ∀ (s t : State) (e : ErrFlag), step s = .next t → s.mover ≠ some .resetLine → s.status.has e = true →
    t.status.has e = true

/-- R23: BUSY rises only by a command the host writes, falls only by JOIN or reset; DONE rises only by JOIN, falls only
by a command the host writes or reset. -/
def Obligations.BusyAndDoneChangeOnlyAsStated : Prop :=
  ∀ s t : State, step s = .next t →
    (s.status.busy = false → t.status.busy = true →
        s.mover = some .host ∧ ∃ i rest, s.program = .write 0 (encode i) :: rest)
      ∧ (s.status.busy = true → t.status.busy = false →
          (s.mover = some .sequencer ∧ s.joinReady = true) ∨ s.mover = some .resetLine)
      ∧ (s.status.done = false → t.status.done = true → s.mover = some .sequencer ∧ s.joinReady = true)
      ∧ (s.status.done = true → t.status.done = false →
          (s.mover = some .host ∧ t.status.busy = true ∧ ∃ i rest, s.program = .write 0 (encode i) :: rest)
            ∨ s.mover = some .resetLine)

/-- R79, R203: no step but a reset changes the destination grid that is not the current call's target, and none that
begins and ends between calls changes either. -/
def Obligations.DestinationsChangeOnlyInTheirOwnCall : Prop :=
  ∀ s t : State, step s = .next t → s.mover ≠ some .resetLine →
    (t.lxform = .luminance → ∀ x y, t.rgbaAt x y = s.rgbaAt x y)
      ∧ (t.lxform = .convolution → ∀ x y, t.grayAt x y = s.grayAt x y)
      ∧ (s.status.busy = false → t.status.busy = false →
          ∀ x y, t.grayAt x y = s.grayAt x y ∧ t.rgbaAt x y = s.rgbaAt x y)

/-- R164, R208: a call starts with W * H (GRAY) or max(W-2,0) * max(H-2,0) (SHARP) WORKER steps left, for every worker
count. -/
def Obligations.WorkLeftAtStart : Prop :=
  ∀ (i : Instr) (s : State), s.Accepts → s.ControlInv →
    ∃ t, exec i s = .next t ∧ t.remaining = callSteps i.xform s.width.toNat s.height.toNat

/-- R164: during a call a WORKER step lowers the work left by exactly one and a step of the host leaves it. -/
def Obligations.EveryWorkerStepDoesOnePixel : Prop :=
  ∀ s t : State, s.Inv → s.status.busy = true → step s = .next t →
    (∀ i, s.mover = some (.worker i) → t.status.busy = true ∧ t.remaining + 1 = s.remaining)
      ∧ (s.mover = some .host → t.status.busy = true ∧ t.remaining = s.remaining)

/-- R207: in every execution that is weakly fair to the workers and the sequencer, a call that runs ends. -/
def Obligations.FairCallsEnd : Prop :=
  ∀ σ : Nat → State, Execution σ → WeaklyFair σ → (σ 0).Inv → (σ 0).status.busy = true →
    ∃ n, (σ n).status.busy = false

/-! The engine's steps -/

/-- R123: the WORKER step of a GRAY command writes the luminance of one source cell to the gray cell at the cursor,
advances the cursor, and changes nothing else. -/
def Obligations.GrayWorkerStepWritesOneCell : Prop :=
  ∀ (s : State) (i : Nat) (w : Worker), s.status.busy = true → s.lxform = .luminance → s.workers[i]? = some w →
    w.fin = false → s.cellExists w.cx.toNat w.cy.toNat = true →
      ∃ t, agentStep (.worker i) s = .next t
        ∧ t = { s with gray := t.gray, workers := s.workers.set i (w.advance (s.boundsOf w)) }
        ∧ (s.gray.wf = true →
            t.grayAt w.cx.toNat w.cy.toNat = (s.srcAt w.cx.toNat w.cy.toNat).r.extractLsb' 8 8
            ∧ ∀ x < s.xmax.toNat, ∀ y < s.ymax.toNat, (x ≠ w.cx.toNat ∨ y ≠ w.cy.toNat) →
                t.grayAt x y = s.grayAt x y)

/-- R142: the WORKER step of a SHARP command writes the convolution of the cursor's neighbourhood, with alpha 255, to
the RGBA cell at the cursor, advances the cursor, and changes nothing else. -/
def Obligations.SharpWorkerStepWritesOneCell : Prop :=
  ∀ (s : State) (i : Nat) (w : Worker), s.status.busy = true → s.lxform = .convolution → s.workers[i]? = some w →
    w.fin = false → s.neighboursExist w.cx.toNat w.cy.toNat = true →
      ∃ t, agentStep (.worker i) s = .next t
        ∧ t = { s with rgba := t.rgba, workers := s.workers.set i (w.advance (s.boundsOf w)) }
        ∧ (s.rgba.wf = true →
            (∃ out, out = convolve kernel (fun r c => s.srcAt (w.cx.toNat + c - 1) (w.cy.toNat + r - 1))
              ∧ t.rgbaAt w.cx.toNat w.cy.toNat = ⟨out.1, out.2.1, out.2.2, 255⟩)
            ∧ ∀ x < s.xmax.toNat, ∀ y < s.ymax.toNat, (x ≠ w.cx.toNat ∨ y ≠ w.cy.toNat) →
                t.rgbaAt x y = s.rgbaAt x y)

/-- R62: during a call that meets the invariant every unfinished worker has its WORKER step, and its cursor, for a SHARP
command with all eight neighbours, is inside the image. -/
def Obligations.UnfinishedWorkersAccessTheImageOnly : Prop :=
  ∀ (s : State) (i : Nat), s.Inv → s.workerReady i = true →
    (∃ t, agentStep (.worker i) s = .next t)
      ∧ (s.worker i).cx.toNat < s.wl.toNat ∧ (s.worker i).cy.toNat < s.hl.toNat
      ∧ (s.lxform = .convolution →
          1 ≤ (s.worker i).cx.toNat ∧ (s.worker i).cx.toNat + 1 < s.wl.toNat
            ∧ 1 ≤ (s.worker i).cy.toNat ∧ (s.worker i).cy.toNat + 1 < s.hl.toNat)

/-- R33: within its bounds a cursor visits the pixels in row-major order, one a step, and the worker finishes exactly
after the last. -/
def Obligations.CursorVisitsRowMajor : Prop :=
  ∀ (b : Bounds) (w : Worker), b.xhi ≤ 65535 → b.yhi ≤ 65535 → w.fin = false →
    b.contains w.cx.toNat w.cy.toNat = true →
      ((w.advance b).fin = true ↔
          w.cx.toNat + 1 = b.xhi ∧ w.cy.toNat + 1 = b.yhi)
        ∧ ((w.advance b).fin = false →
            b.contains (w.advance b).cx.toNat (w.advance b).cy.toNat = true
              ∧ (w.advance b).cy.toNat * (b.xhi - b.xlo) + (w.advance b).cx.toNat
                  = w.cy.toNat * (b.xhi - b.xlo) + w.cx.toNat + 1)
        ∧ (w.advance b).bstart = w.bstart ∧ (w.advance b).bend = w.bend

/-- R165: JOIN, enabled when BUSY = 1 and every worker has finished, clears BUSY, sets DONE and changes nothing else;
where it is not enabled the sequencer has no step. -/
def Obligations.JoinClearsBusyAndSetsDone : Prop :=
  ∀ s : State, s.workers.length = s.nwork.toNat → s.status.busy = true →
    ((∀ i < s.nwork.toNat, (s.worker i).fin = true) →
        s.enabled .sequencer = true
          ∧ agentStep .sequencer s = .next { s with status := { s.status with busy := false, done := true } })
      ∧ ((∃ i < s.nwork.toNat, (s.worker i).fin = false) → s.enabled .sequencer = false)

/-- R200, R201: a reset, during a call or not, leaves every register at its reset value, no worker enabled and BUSY and
DONE 0. Every grid cell then holds the unspecified content of a reset that is new: the count of resets has risen by one
(log 6, log 9), so that no content of before, written or not, survives. Nothing of the outside world but the pulse is
used up (log 4). -/
def Obligations.ResetAbandonsTheCall : Prop :=
  ∀ s : State, 1 ≤ s.resetPulses → ∃ t, agentStep .resetLine s = .next t
    ∧ (∀ idx : BitVec 5, idx.toNat < 7 ∨ idx = 11 →
        (hostRead idx t).1 = (hostRead idx (State.atReset s.nwork s.xmax s.ymax 0)).1)
    ∧ t.status = ⟨false, false, false, false, false, false, false, false⟩
    ∧ (∀ i, t.workerReady i = false) ∧ t.joinReady = false ∧ t.program = s.program
    ∧ t.replies = s.replies ∧ t.schedule = s.schedule ∧ t.draws = s.draws ∧ t.resetPulses + 1 = s.resetPulses
    ∧ t.epoch = s.epoch + 1
    ∧ ∀ x y, t.srcAt x y = Config.resetSample t.epoch (cellKey x y)
        ∧ t.grayAt x y = Config.resetGray t.epoch (cellKey x y)
        ∧ t.rgbaAt x y = Config.resetPixel t.epoch (cellKey x y)

/-! The partitioner -/

/-- R112: for every H and N of at least 1 the N bands abut, start at 0 and end at H, and every row lies in exactly
one. -/
def Obligations.BandsTileTheRows : Prop :=
  ∀ H N : Nat, 1 ≤ H → 1 ≤ N →
    (band H N 0).1 = 0 ∧ (band H N (N - 1)).2 = H
      ∧ (∀ i, i + 1 < N → (band H N i).2 = (band H N (i + 1)).1)
      ∧ (∀ i < N, (band H N i).1 ≤ (band H N i).2 ∧ (band H N i).2 ≤ H)
      ∧ ∀ y < H, ∃ i < N, ((band H N i).1 ≤ y ∧ y < (band H N i).2)
          ∧ ∀ j < N, (band H N j).1 ≤ y → y < (band H N j).2 → j = i

/-- R113, R114, R115: every band but the last holds H / N rows and the last the remainder too; with fewer rows than
workers the last does everything; one worker has the band (0, H). -/
def Obligations.BandSizes : Prop :=
  ∀ H N : Nat, 1 ≤ H → 1 ≤ N →
    (∀ i, i + 1 < N → (band H N i).2 - (band H N i).1 = H / N)
      ∧ (band H N (N - 1)).2 - (band H N (N - 1)).1 = H / N + H % N
      ∧ (H < N → (∀ i, i + 1 < N → band H N i = (0, 0)) ∧ band H N (N - 1) = (0, H))
      ∧ band H 1 0 = (0, H)

/-- R145: the rows the workers of a SHARP call process, each band clipped by its worker, tile the interior rows. -/
def Obligations.ClippedBandsTileTheInterior : Prop :=
  ∀ H N y : Nat, 1 ≤ H → 1 ≤ N →
    ((1 ≤ y ∧ y + 1 < H) ↔
        ∃ i < N, max (band H N i).1 1 ≤ y ∧ y < min (band H N i).2 (H - 1))
      ∧ ∀ i < N, ∀ j < N, max (band H N i).1 1 ≤ y → y < min (band H N i).2 (H - 1) →
          max (band H N j).1 1 ≤ y → y < min (band H N j).2 (H - 1) → i = j

/-! The pixel functions -/

/-- R121: the luminance is the high byte of R, `floor(R / 256)`; it does not depend on G, B and A and does not fall
when R rises. -/
def Obligations.LuminanceIsTheHighByteOfRed : Prop :=
  (∀ p : Sample, (luminance p).toNat = p.r.toNat / 256)
    ∧ (∀ p q : Sample, p.r = q.r → luminance p = luminance q)
    ∧ ∀ p q : Sample, p.r.toNat ≤ q.r.toNat → (luminance p).toNat ≤ (luminance q).toNat

/-- R138: the 32-bit accumulation is exact for every matrix of `s8` weights, so no step of it overflows. -/
def Obligations.AccumulationIsExact : Prop :=
  ∀ (K : Nat → Nat → Byte) (lane : Nat → Nat → Half),
    (laneSum K lane).toInt
      = (matrixEntries.map fun e => (K e.1 e.2).toInt * ((lane e.1 e.2).toNat : Int)).sum

/-- R138: with the fixed kernel a sum is five times the centre less the four neighbours, between -262140 and 327675. -/
def Obligations.SharpenSumClosedForm : Prop :=
  ∀ lane : Nat → Nat → Half,
    (laneSum kernel lane).toInt
        = 5 * ((lane 1 1).toNat : Int) - (lane 0 1).toNat - (lane 2 1).toNat - (lane 1 0).toNat - (lane 1 2).toNat
      ∧ -262140 ≤ (laneSum kernel lane).toInt ∧ (laneSum kernel lane).toInt ≤ 327675

/-- R137: `Reduce` is 0 up to 255, `floor(sum / 256)` from 256 to 65535, and 255 from 65280 on. -/
def Obligations.ReduceShiftsThenClamps : Prop :=
  ∀ sum : Word,
    (sum.toInt ≤ 255 → reduceSum sum = 0)
      ∧ (256 ≤ sum.toInt → sum.toInt ≤ 65535 → ((reduceSum sum).toNat : Int) = sum.toInt / 256)
      ∧ (65280 ≤ sum.toInt → reduceSum sum = 255)

/-- R149, R139, R138: each output lane depends on its own colour lane alone, and the cell a SHARP command writes has
alpha 255 and depends neither on source alpha nor on the four corner samples. -/
def Obligations.SharpenLanesAreIndependent : Prop :=
  (∀ (K : Nat → Nat → Byte) (nb nb' : Nat → Nat → Sample),
      ((∀ r < 3, ∀ c < 3, (nb r c).r = (nb' r c).r) → (convolve K nb).1 = (convolve K nb').1)
        ∧ ((∀ r < 3, ∀ c < 3, (nb r c).g = (nb' r c).g) → (convolve K nb).2.1 = (convolve K nb').2.1)
        ∧ ((∀ r < 3, ∀ c < 3, (nb r c).b = (nb' r c).b) → (convolve K nb).2.2 = (convolve K nb').2.2))
    ∧ ∀ (S S' : Nat → Nat → Sample) (x y : Nat), 1 ≤ x → 1 ≤ y →
        (∀ p ∈ [(x, y), (x, y - 1), (x, y + 1), (x - 1, y), (x + 1, y)],
          (S p.1 p.2).r = (S' p.1 p.2).r ∧ (S p.1 p.2).g = (S' p.1 p.2).g ∧ (S p.1 p.2).b = (S' p.1 p.2).b) →
        sharpCell S x y = sharpCell S' x y ∧ (sharpCell S x y).a = 255

/-- R148: a pixel whose five-point cross is uniform maps to its own components shifted right by 8, with alpha 255. -/
def Obligations.UniformCrossIsKept : Prop :=
  ∀ (S : Nat → Nat → Sample) (x y : Nat) (p : Sample), 1 ≤ x → 1 ≤ y →
    S x y = p → S x (y - 1) = p → S x (y + 1) = p → S (x - 1) y = p → S (x + 1) y = p →
      sharpCell S x y = ⟨p.r.extractLsb' 8 8, p.g.extractLsb' 8 8, p.b.extractLsb' 8 8, 255⟩

/-- R140: the border of a sharpen result is the zero cell, alpha 0 too, and an interior cell is computed, alpha 255. -/
def Obligations.SharpenBorderIsZero : Prop :=
  ∀ (S : Nat → Nat → Sample) (W H x y : Nat), x < W → y < H →
    ((x = 0 ∨ x + 1 = W ∨ y = 0 ∨ y + 1 = H) → sharpOut S W H x y = ⟨0, 0, 0, 0⟩)
      ∧ (¬(x = 0 ∨ x + 1 = W ∨ y = 0 ∨ y + 1 = H) →
          sharpOut S W H x y = sharpCell S x y ∧ (sharpOut S W H x y).a = 255)

/-! The host port -/

/-- R161, R32: the plain registers, the nine kernel weights among them, read as stated and the reads change nothing,
BUSY or not; PX_X and PX_Y are written at any time, the upper half of the value ignored. -/
def Obligations.PlainRegisterAccess : Prop :=
  ∀ s : State,
    hostRead 0 s = (0, s) ∧ hostRead 2 s = (s.width.setWidth 32, s) ∧ hostRead 3 s = (s.height.setWidth 32, s)
      ∧ hostRead 4 s = (s.nwork.setWidth 32, s) ∧ hostRead 5 s = (s.pxX.setWidth 32, s)
      ∧ hostRead 6 s = (s.pxY.setWidth 32, s) ∧ hostRead 11 s = (s.ymax ++ s.xmax, s)
      ∧ (List.range 9).map (fun k => hostRead (BitVec.ofNat 5 (16 + k)) s)
          = [(0x00000000#32, s), (0xFFFFFFFF#32, s), (0x00000000#32, s), (0xFFFFFFFF#32, s), (0x00000005#32, s),
             (0xFFFFFFFF#32, s), (0x00000000#32, s), (0xFFFFFFFF#32, s), (0x00000000#32, s)]
      ∧ ∀ v : Word, hostWrite 5 v s = .next { s with pxX := v.extractLsb' 0 16 }
          ∧ hostWrite 6 v s = .next { s with pxY := v.extractLsb' 0 16 }

/-- R23, R161: STATUS reads with each field at its bit and the reserved bits 0, and the read changes nothing. -/
def Obligations.StatusRegisterLayout : Prop :=
  ∀ s : State, (hostRead 1 s).2 = s
    ∧ (∀ k : Nat, (hostRead 1 s).1.getLsbD k
        = (if k = 0 then s.status.busy else if k = 1 then s.status.done else if k = 8 then s.status.errOp
           else if k = 9 then s.status.errDim else if k = 10 then s.status.errBusy
           else if k = 11 then s.status.errLock else if k = 12 then s.status.errRange
           else if k = 13 then s.status.errAddr else false))

/-- R166: WIDTH and HEIGHT take the low half of any value while idle, whatever it is; during a call the write raises
ERR_LOCK and does nothing else. -/
def Obligations.ConfigurationWrites : Prop :=
  ∀ (v : Word) (s : State),
    (s.status.busy = false → hostWrite 2 v s = .next { s with width := v.extractLsb' 0 16 }
        ∧ hostWrite 3 v s = .next { s with height := v.extractLsb' 0 16 })
      ∧ (s.status.busy = true → hostWrite 2 v s = .next { s with status := { s.status with errLock := true } }
        ∧ hostWrite 3 v s = .next { s with status := { s.status with errLock := true } })

/-- R167: SRC_LO and SRC_HI of a cell in range read `{G, R}` and `{A, B}`, BUSY or not, and change nothing; out of range
the read raises ERR_RANGE, and the value it returns is free. -/
def Obligations.SourceWindowReads : Prop :=
  ∀ s : State,
    (s.pxX < s.width ∧ s.pxX < s.xmax ∧ s.pxY < s.height ∧ s.pxY < s.ymax →
        hostRead 7 s = ((s.srcAt s.pxX.toNat s.pxY.toNat).g ++ (s.srcAt s.pxX.toNat s.pxY.toNat).r, s)
          ∧ hostRead 8 s = ((s.srcAt s.pxX.toNat s.pxY.toNat).a ++ (s.srcAt s.pxX.toNat s.pxY.toNat).b, s))
      ∧ (¬(s.pxX < s.width ∧ s.pxX < s.xmax ∧ s.pxY < s.height ∧ s.pxY < s.ymax) →
        ∀ idx ∈ [7#5, 8#5],
          (hostRead idx s).2
            = { s with status := { s.status with errRange := true }, draws := (hostRead idx s).2.draws })

/-- R168: a write of SRC_LO or SRC_HI to a cell in range while idle replaces its two components and leaves the other two
and every other cell and register; during a call it raises ERR_LOCK, else out of range ERR_RANGE, and does nothing
else. -/
def Obligations.SourceWindowWrites : Prop :=
  ∀ (v : Word) (s : State), s.src.wf = true →
    (s.status.busy = false → s.pxX < s.width ∧ s.pxX < s.xmax ∧ s.pxY < s.height ∧ s.pxY < s.ymax →
        ∃ lo hi, hostWrite 7 v s = .next lo ∧ hostWrite 8 v s = .next hi
          ∧ lo = { s with src := lo.src } ∧ hi = { s with src := hi.src }
          ∧ lo.srcAt s.pxX.toNat s.pxY.toNat
              = { s.srcAt s.pxX.toNat s.pxY.toNat with r := v.extractLsb' 0 16, g := v.extractLsb' 16 16 }
          ∧ hi.srcAt s.pxX.toNat s.pxY.toNat
              = { s.srcAt s.pxX.toNat s.pxY.toNat with b := v.extractLsb' 0 16, a := v.extractLsb' 16 16 }
          ∧ ∀ x < s.xmax.toNat, ∀ y < s.ymax.toNat, (x ≠ s.pxX.toNat ∨ y ≠ s.pxY.toNat) →
              lo.srcAt x y = s.srcAt x y ∧ hi.srcAt x y = s.srcAt x y)
      ∧ (s.status.busy = true → ∀ idx ∈ [7#5, 8#5],
          hostWrite idx v s = .next { s with status := { s.status with errLock := true } })
      ∧ (s.status.busy = false → ¬(s.pxX < s.width ∧ s.pxX < s.xmax ∧ s.pxY < s.height ∧ s.pxY < s.ymax) →
          ∀ idx ∈ [7#5, 8#5], hostWrite idx v s = .next { s with status := { s.status with errRange := true } })

/-- R169: GRAY_DATA during a call raises ERR_LOCK, else out of range ERR_RANGE, the value free; else it reads the gray
cell, zero-extended, and changes nothing. -/
def Obligations.GrayWindowReads : Prop :=
  ∀ s : State,
    (s.status.busy = true →
        (hostRead 9 s).2
          = { s with status := { s.status with errLock := true }, draws := (hostRead 9 s).2.draws })
      ∧ (s.status.busy = false → ¬(s.pxX < s.width ∧ s.pxX < s.xmax ∧ s.pxY < s.height ∧ s.pxY < s.ymax) →
        (hostRead 9 s).2
          = { s with status := { s.status with errRange := true }, draws := (hostRead 9 s).2.draws })
      ∧ (s.status.busy = false → s.pxX < s.width ∧ s.pxX < s.xmax ∧ s.pxY < s.height ∧ s.pxY < s.ymax →
        hostRead 9 s = ((s.grayAt s.pxX.toNat s.pxY.toNat).setWidth 32, s))

/-- R170: RGBA_DATA during a call raises ERR_LOCK, else out of range ERR_RANGE, the value free; else it reads
`{A, B, G, R}` of the cell and changes nothing. -/
def Obligations.RgbaWindowReads : Prop :=
  ∀ s : State,
    (s.status.busy = true →
        (hostRead 10 s).2
          = { s with status := { s.status with errLock := true }, draws := (hostRead 10 s).2.draws })
      ∧ (s.status.busy = false → ¬(s.pxX < s.width ∧ s.pxX < s.xmax ∧ s.pxY < s.height ∧ s.pxY < s.ymax) →
        (hostRead 10 s).2
          = { s with status := { s.status with errRange := true }, draws := (hostRead 10 s).2.draws })
      ∧ (s.status.busy = false → s.pxX < s.width ∧ s.pxX < s.xmax ∧ s.pxY < s.height ∧ s.pxY < s.ymax →
        hostRead 10 s
          = ((s.rgbaAt s.pxX.toNat s.pxY.toNat).a ++ (s.rgbaAt s.pxX.toNat s.pxY.toNat).b
              ++ (s.rgbaAt s.pxX.toNat s.pxY.toNat).g ++ (s.rgbaAt s.pxX.toNat s.pxY.toNat).r, s))

/-- R172: a read of a reserved index returns 0 and raises ERR_ADDR; a write to a read-only register or a reserved index
raises ERR_ADDR and writes nothing; a read of CMD returns 0 with no flag; BUSY or not. -/
def Obligations.ReservedAndForbiddenAccess : Prop :=
  ∀ s : State,
    (∀ idx : BitVec 5, (12 ≤ idx.toNat ∧ idx.toNat ≤ 15) ∨ 25 ≤ idx.toNat →
        hostRead idx s = (0, { s with status := { s.status with errAddr := true } }))
      ∧ (∀ (idx : BitVec 5) (v : Word), idx.toNat ∈ [1, 4, 9, 10, 11] ∨ 12 ≤ idx.toNat →
        hostWrite idx v s = .next { s with status := { s.status with errAddr := true } })
      ∧ hostRead 0 s = (0, s)

/-- R68: no read changes a register or a cell: it can only raise one error flag, and count the free value it drew. -/
def Obligations.ReadsChangeNoData : Prop :=
  ∀ (idx : BitVec 5) (s : State),
    (hostRead idx s).2 = { s with status := (hostRead idx s).2.status, draws := (hostRead idx s).2.draws }
      ∧ ((hostRead idx s).2.status = s.status ∨ ∃ e, (hostRead idx s).2.status = s.status.raise e)

/-- R171, R173, R188: a write to any index but CMD answers a next state in which WIDTH, HEIGHT, PX_X and PX_Y can differ
for their own index alone. A write to SRC_LO or SRC_HI stores to the cell (PX_X, PX_Y) and leaves every other source
cell; every other index leaves the whole source grid. No such write changes a destination grid, BUSY or DONE, and one
that raises a flag raises only one and changes nothing else. -/
def Obligations.RegisterWriteFrame : Prop :=
  ∀ (idx : BitVec 5) (v : Word) (s : State), idx ≠ 0 → ∃ t, hostWrite idx v s = .next t
    ∧ t = { s with status := t.status, width := t.width, height := t.height, pxX := t.pxX, pxY := t.pxY,
                   src := t.src }
    ∧ (∀ x y, t.grayAt x y = s.grayAt x y ∧ t.rgbaAt x y = s.rgbaAt x y)
    ∧ (idx ≠ 2 → t.width = s.width) ∧ (idx ≠ 3 → t.height = s.height)
    ∧ (idx ≠ 5 → t.pxX = s.pxX) ∧ (idx ≠ 6 → t.pxY = s.pxY)
    ∧ (idx ≠ 7 → idx ≠ 8 → t.src = s.src ∧ ∀ x y, t.srcAt x y = s.srcAt x y)
    ∧ (idx = 7 ∨ idx = 8 → ∀ x y : Half, (x ≠ s.pxX ∨ y ≠ s.pxY) →
        t.srcAt x.toNat y.toNat = s.srcAt x.toNat y.toNat)
    ∧ (t.status = s.status
        ∨ ∃ e, t = { s with status := s.status.raise e })

/-- R98: WAIT reads STATUS once a step, records the reply, and stands first again exactly while it finds BUSY = 1. -/
def Obligations.WaitPollsStatus : Prop :=
  ∀ (s : State) (rest : List HostOp), s.program = .wait :: rest →
    agentStep .host s
      = .next { s with program := if s.status.busy then .wait :: rest else rest,
                       replies := (1#5, (hostRead 1 s).1) :: s.replies }

/-- R64: serialised to bytes at rising addresses, RGBA_DATA is R, G, B, A of the cell. -/
def Obligations.RgbaBytesInAddressOrder : Prop :=
  ∀ c : Pixel, registerBytes c.word = [c.r, c.g, c.b, c.a]

/-- The engine idles: with nobody enabled a step changes nothing; after reset with nothing placed nobody is enabled. -/
def Obligations.IdleEngineStays : Prop :=
  (∀ s : State, (∀ a, s.enabled a = false) → step s = .next s)
    ∧ ∀ (n x y : Half) (k : Nat) (a : Agent), (State.atReset n x y k).enabled a = false
end

