-- ==== Sys2Proof/Laws/Band.lean ====
section
/-! SUPPORT. Arithmetic of the partitioner (R111): no product overflows a band register. -/

namespace Sys2Proof.Machine

/-- A product of R110 never exceeds the row count. -/
theorem mul_rows_le {H N i : Nat} (h : i ≤ N) : i * (H / N) ≤ H :=
  le_trans (Nat.mul_le_mul_right _ h) (Nat.mul_div_le H N)

theorem band_of_lt {H N i : Nat} (h : i + 1 < N) : band H N i = (i * (H / N), (i + 1) * (H / N)) := by
  simp [band, h]

theorem band_last {H N i : Nat} (h : i + 1 = N) : band H N i = (i * (H / N), H) := by
  subst h; simp [band]

/-- Starts and ends fit the 16-bit band registers (R111). -/
theorem band_le {H N i : Nat} (h : i < N) :
    (band H N i).1 ≤ (band H N i).2 ∧ (band H N i).2 ≤ H ∧ (band H N i).1 = i * (H / N) := by
  rcases Nat.lt_or_ge (i + 1) N with h' | h'
  · rw [band_of_lt h']
    exact ⟨Nat.mul_le_mul_right _ (by omega), mul_rows_le (by omega), rfl⟩
  · rw [band_last (by omega)]
    exact ⟨mul_rows_le (by omega), le_rfl, rfl⟩

end Sys2Proof.Machine
end

