-- ==== Sys2Proof/Laws/Memory.lean ====
section
/-! SUPPORT. The laws of one grid's memory: a read after a write, and that every operation keeps the canonical form. -/

namespace Sys2Proof.Machine

variable {α : Type}

theorem lookupCell_insertCell (k k' : Nat) (v : α) (l : List (Nat × α)) :
    lookupCell (insertCell k v l) k' = if k' = k then some v else lookupCell l k' := by
  induction l with
  | nil => simp [insertCell, lookupCell, eq_comm]
  | cons e rest ih =>
    obtain ⟨q, u⟩ := e
    simp only [insertCell]
    split <;> [skip; split] <;> simp only [lookupCell, ih] <;> grind

/-- Every key of the list is above `k`. -/
theorem risingKeys_cons {k : Nat} {v : α} {l : List (Nat × α)} :
    risingKeys ((k, v) :: l) = true ↔ (∀ e ∈ l, k < e.1) ∧ risingKeys l = true := by
  induction l generalizing k v with
  | nil => simp [risingKeys]
  | cons e rest ih =>
    obtain ⟨q, u⟩ := e
    simp only [risingKeys, Bool.and_eq_true, decide_eq_true_eq, List.mem_cons, forall_eq_or_imp]
    constructor
    · rintro ⟨h, h'⟩
      exact ⟨⟨h, fun e he => lt_trans h ((ih.1 h').1 e he)⟩, h'⟩
    · rintro ⟨⟨h, -⟩, h'⟩
      exact ⟨h, h'⟩

theorem lookupCell_of_below {k : Nat} {l : List (Nat × α)} (h : ∀ e ∈ l, k < e.1) : lookupCell l k = none := by
  induction l with
  | nil => rfl
  | cons e rest ih =>
    obtain ⟨q, u⟩ := e
    simp only [List.mem_cons, forall_eq_or_imp] at h
    simp [lookupCell, ih h.2, Nat.ne_of_gt h.1]

theorem lookupCell_eraseCell {l : List (Nat × α)} (h : risingKeys l = true) (k k' : Nat) :
    lookupCell (eraseCell k l) k' = if k' = k then none else lookupCell l k' := by
  induction l with
  | nil => simp [eraseCell, lookupCell]
  | cons e rest ih =>
    obtain ⟨q, u⟩ := e
    obtain ⟨hb, hr⟩ := risingKeys_cons.1 h
    simp only [eraseCell]
    split
    · subst_vars
      by_cases hk : k' = q
      · simp [hk, lookupCell_of_below hb]
      · simp [lookupCell, hk, Ne.symm hk]
    · simp only [lookupCell, ih hr]
      grind

/-- Erasing a key leaves every other key, in any list. -/
theorem lookupCell_eraseCell_other {k k' : Nat} (hk : k' ≠ k) (l : List (Nat × α)) :
    lookupCell (eraseCell k l) k' = lookupCell l k' := by
  induction l with
  | nil => rfl
  | cons e rest ih =>
    obtain ⟨q, u⟩ := e
    simp only [eraseCell]
    split
    · subst_vars; simp [lookupCell, Ne.symm hk]
    · simp only [lookupCell, ih]

theorem mem_insertCell {k : Nat} {v : α} {l : List (Nat × α)} {e : Nat × α} (h : e ∈ insertCell k v l) :
    e = (k, v) ∨ e ∈ l := by
  induction l with
  | nil => simpa [insertCell] using h
  | cons d rest ih =>
    obtain ⟨q, u⟩ := d
    simp only [insertCell] at h
    split at h <;> [skip; split at h] <;> simp only [List.mem_cons] at h ⊢ <;> grind

theorem mem_eraseCell {k : Nat} {l : List (Nat × α)} {e : Nat × α} (h : e ∈ eraseCell k l) : e ∈ l := by
  induction l with
  | nil => simp [eraseCell] at h
  | cons d rest ih =>
    obtain ⟨q, u⟩ := d
    simp only [eraseCell] at h
    split at h <;> simp only [List.mem_cons] at h ⊢ <;> grind

theorem risingKeys_insertCell {l : List (Nat × α)} (h : risingKeys l = true) (k : Nat) (v : α) :
    risingKeys (insertCell k v l) = true := by
  induction l with
  | nil => rfl
  | cons d rest ih =>
    obtain ⟨q, u⟩ := d
    obtain ⟨hb, hr⟩ := risingKeys_cons.1 h
    simp only [insertCell]
    split
    · exact risingKeys_cons.2 ⟨by simp only [List.mem_cons]; grind, h⟩
    · split
      · subst_vars
        exact risingKeys_cons.2 ⟨hb, hr⟩
      · refine risingKeys_cons.2 ⟨fun e he => ?_, ih hr⟩
        rcases mem_insertCell he with rfl | he
        · show q < k
          omega
        · exact hb e he

theorem risingKeys_eraseCell {l : List (Nat × α)} (h : risingKeys l = true) (k : Nat) :
    risingKeys (eraseCell k l) = true := by
  induction l with
  | nil => rfl
  | cons d rest ih =>
    obtain ⟨q, u⟩ := d
    obtain ⟨hb, hr⟩ := risingKeys_cons.1 h
    simp only [eraseCell]
    split
    · exact hr
    · exact risingKeys_cons.2 ⟨fun e he => hb e (mem_eraseCell he), ih hr⟩

variable [DecidableEq α]

theorem Memory.wf_iff {m : Memory α} :
    m.wf = true ↔ risingKeys m.cells = true ∧ ∀ e ∈ m.cells, m.fill ≠ some e.2 := by
  simp [Memory.wf]

@[simp] theorem Memory.set_fill (m : Memory α) (k : Nat) (v : α) : (m.set k v).fill = m.fill := rfl

/-- A read after a write gives the value written at its key and leaves every other key. -/
theorem Memory.get_set {m : Memory α} (h : m.wf = true) (z : Nat → α) (k k' : Nat) (v : α) :
    (m.set k v).get z k' = if k' = k then v else m.get z k' := by
  have hr := (Memory.wf_iff.1 h).1
  unfold Memory.set Memory.get Memory.unlisted
  by_cases hf : m.fill = some v
  · simp only [hf, if_true, lookupCell_eraseCell hr]
    by_cases hk : k' = k <;> simp [hk]
  · simp only [hf, if_false, lookupCell_insertCell]
    by_cases hk : k' = k <;> simp [hk]

theorem Memory.get_set_same {m : Memory α} (h : m.wf = true) (z : Nat → α) (k : Nat) (v : α) :
    (m.set k v).get z k = v := by rw [Memory.get_set h, if_pos rfl]

/-- A write leaves every other key, in canonical form or not. -/
theorem Memory.get_set_other (m : Memory α) (z : Nat → α) {k k' : Nat} (hk : k' ≠ k) (v : α) :
    (m.set k v).get z k' = m.get z k' := by
  unfold Memory.set Memory.get Memory.unlisted
  split <;> simp [lookupCell_eraseCell_other hk, lookupCell_insertCell, hk]

/-- A write keeps the canonical form. -/
theorem Memory.wf_set {m : Memory α} (h : m.wf = true) (k : Nat) (v : α) : (m.set k v).wf = true := by
  obtain ⟨hr, hv⟩ := Memory.wf_iff.1 h
  refine Memory.wf_iff.2 ?_
  unfold Memory.set
  split
  · exact ⟨risingKeys_eraseCell hr k, fun e he => hv e (mem_eraseCell he)⟩
  · rename_i hf
    refine ⟨risingKeys_insertCell hr k v, fun e he => ?_⟩
    rcases mem_insertCell he with rfl | he
    · exact hf
    · exact hv e he

/-- What a write lists is the key written or was listed before. -/
theorem Memory.mem_set {m : Memory α} {k : Nat} {v : α} {e : Nat × α} (h : e ∈ (m.set k v).cells) :
    e.1 = k ∨ e ∈ m.cells := by
  unfold Memory.set at h
  split at h
  · exact .inr (mem_eraseCell h)
  · rcases mem_insertCell h with rfl | h
    · exact .inl rfl
    · exact .inr h

@[simp] theorem Memory.wf_filled (v : α) : (Memory.filled v).wf = true := rfl

@[simp] theorem Memory.wf_unwritten : (Memory.unwritten : Memory α).wf = true := rfl

omit [DecidableEq α] in
@[simp] theorem Memory.get_filled (v : α) (z : Nat → α) (k : Nat) : (Memory.filled v).get z k = v := rfl

omit [DecidableEq α] in
@[simp] theorem Memory.get_unwritten (z : Nat → α) (k : Nat) : (Memory.unwritten : Memory α).get z k = z k := rfl

/-- Two cells of one grid share a key only if they are one cell. -/
theorem cellKey_inj {x y x' y' : Nat} (hx : x < 65536) (hx' : x' < 65536) :
    cellKey x y = cellKey x' y' ↔ x = x' ∧ y = y' := by
  unfold cellKey; omega

theorem cellKey_mod {x y : Nat} (hx : x < 65536) : cellKey x y % 65536 = x := by unfold cellKey; omega

theorem cellKey_div {x y : Nat} (hx : x < 65536) : cellKey x y / 65536 = y := by unfold cellKey; omega

end Sys2Proof.Machine
end

