-- ==== Sys2Proof/Laws/State.lean ====
section
/-! SUPPORT. What each update of the state does to each field, so that no proof unfolds a record update. -/

namespace Sys2Proof.Machine

@[simp] theorem State.refuse_status (s : State) (e : ErrFlag) : (s.refuse e).status = s.status.raise e := rfl
@[simp] theorem State.refuse_width (s : State) (e : ErrFlag) : (s.refuse e).width = s.width := rfl
@[simp] theorem State.refuse_height (s : State) (e : ErrFlag) : (s.refuse e).height = s.height := rfl
@[simp] theorem State.refuse_pxX (s : State) (e : ErrFlag) : (s.refuse e).pxX = s.pxX := rfl
@[simp] theorem State.refuse_pxY (s : State) (e : ErrFlag) : (s.refuse e).pxY = s.pxY := rfl
@[simp] theorem State.refuse_nwork (s : State) (e : ErrFlag) : (s.refuse e).nwork = s.nwork := rfl
@[simp] theorem State.refuse_xmax (s : State) (e : ErrFlag) : (s.refuse e).xmax = s.xmax := rfl
@[simp] theorem State.refuse_ymax (s : State) (e : ErrFlag) : (s.refuse e).ymax = s.ymax := rfl
@[simp] theorem State.refuse_src (s : State) (e : ErrFlag) : (s.refuse e).src = s.src := rfl
@[simp] theorem State.refuse_gray (s : State) (e : ErrFlag) : (s.refuse e).gray = s.gray := rfl
@[simp] theorem State.refuse_rgba (s : State) (e : ErrFlag) : (s.refuse e).rgba = s.rgba := rfl
@[simp] theorem State.refuse_lxform (s : State) (e : ErrFlag) : (s.refuse e).lxform = s.lxform := rfl
@[simp] theorem State.refuse_lexec (s : State) (e : ErrFlag) : (s.refuse e).lexec = s.lexec := rfl
@[simp] theorem State.refuse_wl (s : State) (e : ErrFlag) : (s.refuse e).wl = s.wl := rfl
@[simp] theorem State.refuse_hl (s : State) (e : ErrFlag) : (s.refuse e).hl = s.hl := rfl
@[simp] theorem State.refuse_neff (s : State) (e : ErrFlag) : (s.refuse e).neff = s.neff := rfl
@[simp] theorem State.refuse_workers (s : State) (e : ErrFlag) : (s.refuse e).workers = s.workers := rfl
@[simp] theorem State.refuse_program (s : State) (e : ErrFlag) : (s.refuse e).program = s.program := rfl
@[simp] theorem State.refuse_replies (s : State) (e : ErrFlag) : (s.refuse e).replies = s.replies := rfl
@[simp] theorem State.refuse_resetPulses (s : State) (e : ErrFlag) : (s.refuse e).resetPulses = s.resetPulses := rfl
@[simp] theorem State.refuse_schedule (s : State) (e : ErrFlag) : (s.refuse e).schedule = s.schedule := rfl
@[simp] theorem State.refuse_draws (s : State) (e : ErrFlag) : (s.refuse e).draws = s.draws := rfl
@[simp] theorem State.refuse_epoch (s : State) (e : ErrFlag) : (s.refuse e).epoch = s.epoch := rfl

@[simp] theorem State.writeSrc_status (s : State) (x y : Nat) (p : Sample) : (s.writeSrc x y p).status = s.status := rfl
@[simp] theorem State.writeSrc_width (s : State) (x y : Nat) (p : Sample) : (s.writeSrc x y p).width = s.width := rfl
@[simp] theorem State.writeSrc_height (s : State) (x y : Nat) (p : Sample) : (s.writeSrc x y p).height = s.height := rfl
@[simp] theorem State.writeSrc_pxX (s : State) (x y : Nat) (p : Sample) : (s.writeSrc x y p).pxX = s.pxX := rfl
@[simp] theorem State.writeSrc_pxY (s : State) (x y : Nat) (p : Sample) : (s.writeSrc x y p).pxY = s.pxY := rfl
@[simp] theorem State.writeSrc_nwork (s : State) (x y : Nat) (p : Sample) : (s.writeSrc x y p).nwork = s.nwork := rfl
@[simp] theorem State.writeSrc_xmax (s : State) (x y : Nat) (p : Sample) : (s.writeSrc x y p).xmax = s.xmax := rfl
@[simp] theorem State.writeSrc_ymax (s : State) (x y : Nat) (p : Sample) : (s.writeSrc x y p).ymax = s.ymax := rfl
@[simp] theorem State.writeSrc_src (s : State) (x y : Nat) (p : Sample) : (s.writeSrc x y p).src = s.src.set (cellKey x y) p := rfl
@[simp] theorem State.writeSrc_gray (s : State) (x y : Nat) (p : Sample) : (s.writeSrc x y p).gray = s.gray := rfl
@[simp] theorem State.writeSrc_rgba (s : State) (x y : Nat) (p : Sample) : (s.writeSrc x y p).rgba = s.rgba := rfl
@[simp] theorem State.writeSrc_lxform (s : State) (x y : Nat) (p : Sample) : (s.writeSrc x y p).lxform = s.lxform := rfl
@[simp] theorem State.writeSrc_lexec (s : State) (x y : Nat) (p : Sample) : (s.writeSrc x y p).lexec = s.lexec := rfl
@[simp] theorem State.writeSrc_wl (s : State) (x y : Nat) (p : Sample) : (s.writeSrc x y p).wl = s.wl := rfl
@[simp] theorem State.writeSrc_hl (s : State) (x y : Nat) (p : Sample) : (s.writeSrc x y p).hl = s.hl := rfl
@[simp] theorem State.writeSrc_neff (s : State) (x y : Nat) (p : Sample) : (s.writeSrc x y p).neff = s.neff := rfl
@[simp] theorem State.writeSrc_workers (s : State) (x y : Nat) (p : Sample) : (s.writeSrc x y p).workers = s.workers := rfl
@[simp] theorem State.writeSrc_program (s : State) (x y : Nat) (p : Sample) : (s.writeSrc x y p).program = s.program := rfl
@[simp] theorem State.writeSrc_replies (s : State) (x y : Nat) (p : Sample) : (s.writeSrc x y p).replies = s.replies := rfl
@[simp] theorem State.writeSrc_resetPulses (s : State) (x y : Nat) (p : Sample) : (s.writeSrc x y p).resetPulses = s.resetPulses := rfl
@[simp] theorem State.writeSrc_schedule (s : State) (x y : Nat) (p : Sample) : (s.writeSrc x y p).schedule = s.schedule := rfl
@[simp] theorem State.writeSrc_draws (s : State) (x y : Nat) (p : Sample) : (s.writeSrc x y p).draws = s.draws := rfl
@[simp] theorem State.writeSrc_epoch (s : State) (x y : Nat) (p : Sample) : (s.writeSrc x y p).epoch = s.epoch := rfl

@[simp] theorem State.writeGray_status (s : State) (x y : Nat) (g : Byte) : (s.writeGray x y g).status = s.status := rfl
@[simp] theorem State.writeGray_width (s : State) (x y : Nat) (g : Byte) : (s.writeGray x y g).width = s.width := rfl
@[simp] theorem State.writeGray_height (s : State) (x y : Nat) (g : Byte) : (s.writeGray x y g).height = s.height := rfl
@[simp] theorem State.writeGray_pxX (s : State) (x y : Nat) (g : Byte) : (s.writeGray x y g).pxX = s.pxX := rfl
@[simp] theorem State.writeGray_pxY (s : State) (x y : Nat) (g : Byte) : (s.writeGray x y g).pxY = s.pxY := rfl
@[simp] theorem State.writeGray_nwork (s : State) (x y : Nat) (g : Byte) : (s.writeGray x y g).nwork = s.nwork := rfl
@[simp] theorem State.writeGray_xmax (s : State) (x y : Nat) (g : Byte) : (s.writeGray x y g).xmax = s.xmax := rfl
@[simp] theorem State.writeGray_ymax (s : State) (x y : Nat) (g : Byte) : (s.writeGray x y g).ymax = s.ymax := rfl
@[simp] theorem State.writeGray_src (s : State) (x y : Nat) (g : Byte) : (s.writeGray x y g).src = s.src := rfl
@[simp] theorem State.writeGray_gray (s : State) (x y : Nat) (g : Byte) : (s.writeGray x y g).gray = s.gray.set (cellKey x y) g := rfl
@[simp] theorem State.writeGray_rgba (s : State) (x y : Nat) (g : Byte) : (s.writeGray x y g).rgba = s.rgba := rfl
@[simp] theorem State.writeGray_lxform (s : State) (x y : Nat) (g : Byte) : (s.writeGray x y g).lxform = s.lxform := rfl
@[simp] theorem State.writeGray_lexec (s : State) (x y : Nat) (g : Byte) : (s.writeGray x y g).lexec = s.lexec := rfl
@[simp] theorem State.writeGray_wl (s : State) (x y : Nat) (g : Byte) : (s.writeGray x y g).wl = s.wl := rfl
@[simp] theorem State.writeGray_hl (s : State) (x y : Nat) (g : Byte) : (s.writeGray x y g).hl = s.hl := rfl
@[simp] theorem State.writeGray_neff (s : State) (x y : Nat) (g : Byte) : (s.writeGray x y g).neff = s.neff := rfl
@[simp] theorem State.writeGray_workers (s : State) (x y : Nat) (g : Byte) : (s.writeGray x y g).workers = s.workers := rfl
@[simp] theorem State.writeGray_program (s : State) (x y : Nat) (g : Byte) : (s.writeGray x y g).program = s.program := rfl
@[simp] theorem State.writeGray_replies (s : State) (x y : Nat) (g : Byte) : (s.writeGray x y g).replies = s.replies := rfl
@[simp] theorem State.writeGray_resetPulses (s : State) (x y : Nat) (g : Byte) : (s.writeGray x y g).resetPulses = s.resetPulses := rfl
@[simp] theorem State.writeGray_schedule (s : State) (x y : Nat) (g : Byte) : (s.writeGray x y g).schedule = s.schedule := rfl
@[simp] theorem State.writeGray_draws (s : State) (x y : Nat) (g : Byte) : (s.writeGray x y g).draws = s.draws := rfl
@[simp] theorem State.writeGray_epoch (s : State) (x y : Nat) (g : Byte) : (s.writeGray x y g).epoch = s.epoch := rfl

@[simp] theorem State.writeRgba_status (s : State) (x y : Nat) (c : Pixel) : (s.writeRgba x y c).status = s.status := rfl
@[simp] theorem State.writeRgba_width (s : State) (x y : Nat) (c : Pixel) : (s.writeRgba x y c).width = s.width := rfl
@[simp] theorem State.writeRgba_height (s : State) (x y : Nat) (c : Pixel) : (s.writeRgba x y c).height = s.height := rfl
@[simp] theorem State.writeRgba_pxX (s : State) (x y : Nat) (c : Pixel) : (s.writeRgba x y c).pxX = s.pxX := rfl
@[simp] theorem State.writeRgba_pxY (s : State) (x y : Nat) (c : Pixel) : (s.writeRgba x y c).pxY = s.pxY := rfl
@[simp] theorem State.writeRgba_nwork (s : State) (x y : Nat) (c : Pixel) : (s.writeRgba x y c).nwork = s.nwork := rfl
@[simp] theorem State.writeRgba_xmax (s : State) (x y : Nat) (c : Pixel) : (s.writeRgba x y c).xmax = s.xmax := rfl
@[simp] theorem State.writeRgba_ymax (s : State) (x y : Nat) (c : Pixel) : (s.writeRgba x y c).ymax = s.ymax := rfl
@[simp] theorem State.writeRgba_src (s : State) (x y : Nat) (c : Pixel) : (s.writeRgba x y c).src = s.src := rfl
@[simp] theorem State.writeRgba_gray (s : State) (x y : Nat) (c : Pixel) : (s.writeRgba x y c).gray = s.gray := rfl
@[simp] theorem State.writeRgba_rgba (s : State) (x y : Nat) (c : Pixel) : (s.writeRgba x y c).rgba = s.rgba.set (cellKey x y) c := rfl
@[simp] theorem State.writeRgba_lxform (s : State) (x y : Nat) (c : Pixel) : (s.writeRgba x y c).lxform = s.lxform := rfl
@[simp] theorem State.writeRgba_lexec (s : State) (x y : Nat) (c : Pixel) : (s.writeRgba x y c).lexec = s.lexec := rfl
@[simp] theorem State.writeRgba_wl (s : State) (x y : Nat) (c : Pixel) : (s.writeRgba x y c).wl = s.wl := rfl
@[simp] theorem State.writeRgba_hl (s : State) (x y : Nat) (c : Pixel) : (s.writeRgba x y c).hl = s.hl := rfl
@[simp] theorem State.writeRgba_neff (s : State) (x y : Nat) (c : Pixel) : (s.writeRgba x y c).neff = s.neff := rfl
@[simp] theorem State.writeRgba_workers (s : State) (x y : Nat) (c : Pixel) : (s.writeRgba x y c).workers = s.workers := rfl
@[simp] theorem State.writeRgba_program (s : State) (x y : Nat) (c : Pixel) : (s.writeRgba x y c).program = s.program := rfl
@[simp] theorem State.writeRgba_replies (s : State) (x y : Nat) (c : Pixel) : (s.writeRgba x y c).replies = s.replies := rfl
@[simp] theorem State.writeRgba_resetPulses (s : State) (x y : Nat) (c : Pixel) : (s.writeRgba x y c).resetPulses = s.resetPulses := rfl
@[simp] theorem State.writeRgba_schedule (s : State) (x y : Nat) (c : Pixel) : (s.writeRgba x y c).schedule = s.schedule := rfl
@[simp] theorem State.writeRgba_draws (s : State) (x y : Nat) (c : Pixel) : (s.writeRgba x y c).draws = s.draws := rfl
@[simp] theorem State.writeRgba_epoch (s : State) (x y : Nat) (c : Pixel) : (s.writeRgba x y c).epoch = s.epoch := rfl

@[simp] theorem State.advanceWorker_status (s : State) (i : Nat) (w : Worker) : (s.advanceWorker i w).status = s.status := rfl
@[simp] theorem State.advanceWorker_width (s : State) (i : Nat) (w : Worker) : (s.advanceWorker i w).width = s.width := rfl
@[simp] theorem State.advanceWorker_height (s : State) (i : Nat) (w : Worker) : (s.advanceWorker i w).height = s.height := rfl
@[simp] theorem State.advanceWorker_pxX (s : State) (i : Nat) (w : Worker) : (s.advanceWorker i w).pxX = s.pxX := rfl
@[simp] theorem State.advanceWorker_pxY (s : State) (i : Nat) (w : Worker) : (s.advanceWorker i w).pxY = s.pxY := rfl
@[simp] theorem State.advanceWorker_nwork (s : State) (i : Nat) (w : Worker) : (s.advanceWorker i w).nwork = s.nwork := rfl
@[simp] theorem State.advanceWorker_xmax (s : State) (i : Nat) (w : Worker) : (s.advanceWorker i w).xmax = s.xmax := rfl
@[simp] theorem State.advanceWorker_ymax (s : State) (i : Nat) (w : Worker) : (s.advanceWorker i w).ymax = s.ymax := rfl
@[simp] theorem State.advanceWorker_src (s : State) (i : Nat) (w : Worker) : (s.advanceWorker i w).src = s.src := rfl
@[simp] theorem State.advanceWorker_gray (s : State) (i : Nat) (w : Worker) : (s.advanceWorker i w).gray = s.gray := rfl
@[simp] theorem State.advanceWorker_rgba (s : State) (i : Nat) (w : Worker) : (s.advanceWorker i w).rgba = s.rgba := rfl
@[simp] theorem State.advanceWorker_lxform (s : State) (i : Nat) (w : Worker) : (s.advanceWorker i w).lxform = s.lxform := rfl
@[simp] theorem State.advanceWorker_lexec (s : State) (i : Nat) (w : Worker) : (s.advanceWorker i w).lexec = s.lexec := rfl
@[simp] theorem State.advanceWorker_wl (s : State) (i : Nat) (w : Worker) : (s.advanceWorker i w).wl = s.wl := rfl
@[simp] theorem State.advanceWorker_hl (s : State) (i : Nat) (w : Worker) : (s.advanceWorker i w).hl = s.hl := rfl
@[simp] theorem State.advanceWorker_neff (s : State) (i : Nat) (w : Worker) : (s.advanceWorker i w).neff = s.neff := rfl
@[simp] theorem State.advanceWorker_workers (s : State) (i : Nat) (w : Worker) : (s.advanceWorker i w).workers = s.workers.set i (w.advance (s.boundsOf w)) := rfl
@[simp] theorem State.advanceWorker_program (s : State) (i : Nat) (w : Worker) : (s.advanceWorker i w).program = s.program := rfl
@[simp] theorem State.advanceWorker_replies (s : State) (i : Nat) (w : Worker) : (s.advanceWorker i w).replies = s.replies := rfl
@[simp] theorem State.advanceWorker_resetPulses (s : State) (i : Nat) (w : Worker) : (s.advanceWorker i w).resetPulses = s.resetPulses := rfl
@[simp] theorem State.advanceWorker_schedule (s : State) (i : Nat) (w : Worker) : (s.advanceWorker i w).schedule = s.schedule := rfl
@[simp] theorem State.advanceWorker_draws (s : State) (i : Nat) (w : Worker) : (s.advanceWorker i w).draws = s.draws := rfl
@[simp] theorem State.advanceWorker_epoch (s : State) (i : Nat) (w : Worker) : (s.advanceWorker i w).epoch = s.epoch := rfl

@[simp] theorem State.join_status (s : State) : (s.join).status = s.status.joined := rfl
@[simp] theorem State.join_width (s : State) : (s.join).width = s.width := rfl
@[simp] theorem State.join_height (s : State) : (s.join).height = s.height := rfl
@[simp] theorem State.join_pxX (s : State) : (s.join).pxX = s.pxX := rfl
@[simp] theorem State.join_pxY (s : State) : (s.join).pxY = s.pxY := rfl
@[simp] theorem State.join_nwork (s : State) : (s.join).nwork = s.nwork := rfl
@[simp] theorem State.join_xmax (s : State) : (s.join).xmax = s.xmax := rfl
@[simp] theorem State.join_ymax (s : State) : (s.join).ymax = s.ymax := rfl
@[simp] theorem State.join_src (s : State) : (s.join).src = s.src := rfl
@[simp] theorem State.join_gray (s : State) : (s.join).gray = s.gray := rfl
@[simp] theorem State.join_rgba (s : State) : (s.join).rgba = s.rgba := rfl
@[simp] theorem State.join_lxform (s : State) : (s.join).lxform = s.lxform := rfl
@[simp] theorem State.join_lexec (s : State) : (s.join).lexec = s.lexec := rfl
@[simp] theorem State.join_wl (s : State) : (s.join).wl = s.wl := rfl
@[simp] theorem State.join_hl (s : State) : (s.join).hl = s.hl := rfl
@[simp] theorem State.join_neff (s : State) : (s.join).neff = s.neff := rfl
@[simp] theorem State.join_workers (s : State) : (s.join).workers = s.workers := rfl
@[simp] theorem State.join_program (s : State) : (s.join).program = s.program := rfl
@[simp] theorem State.join_replies (s : State) : (s.join).replies = s.replies := rfl
@[simp] theorem State.join_resetPulses (s : State) : (s.join).resetPulses = s.resetPulses := rfl
@[simp] theorem State.join_schedule (s : State) : (s.join).schedule = s.schedule := rfl
@[simp] theorem State.join_draws (s : State) : (s.join).draws = s.draws := rfl
@[simp] theorem State.join_epoch (s : State) : (s.join).epoch = s.epoch := rfl

@[simp] theorem State.start_status (s : State) (x : Xform) (e : Executor) : (s.start x e).status = s.status.started := rfl
@[simp] theorem State.start_width (s : State) (x : Xform) (e : Executor) : (s.start x e).width = s.width := rfl
@[simp] theorem State.start_height (s : State) (x : Xform) (e : Executor) : (s.start x e).height = s.height := rfl
@[simp] theorem State.start_pxX (s : State) (x : Xform) (e : Executor) : (s.start x e).pxX = s.pxX := rfl
@[simp] theorem State.start_pxY (s : State) (x : Xform) (e : Executor) : (s.start x e).pxY = s.pxY := rfl
@[simp] theorem State.start_nwork (s : State) (x : Xform) (e : Executor) : (s.start x e).nwork = s.nwork := rfl
@[simp] theorem State.start_xmax (s : State) (x : Xform) (e : Executor) : (s.start x e).xmax = s.xmax := rfl
@[simp] theorem State.start_ymax (s : State) (x : Xform) (e : Executor) : (s.start x e).ymax = s.ymax := rfl
@[simp] theorem State.start_src (s : State) (x : Xform) (e : Executor) : (s.start x e).src = s.src := rfl
@[simp] theorem State.start_lxform (s : State) (x : Xform) (e : Executor) : (s.start x e).lxform = x := rfl
@[simp] theorem State.start_lexec (s : State) (x : Xform) (e : Executor) : (s.start x e).lexec = e := rfl
@[simp] theorem State.start_wl (s : State) (x : Xform) (e : Executor) : (s.start x e).wl = s.width := rfl
@[simp] theorem State.start_hl (s : State) (x : Xform) (e : Executor) : (s.start x e).hl = s.height := rfl
@[simp] theorem State.start_neff (s : State) (x : Xform) (e : Executor) : (s.start x e).neff = s.workerCount e := rfl
@[simp] theorem State.start_workers (s : State) (x : Xform) (e : Executor) : (s.start x e).workers = startWorkers x s.width.toNat s.height.toNat (s.workerCount e).toNat s.workers := rfl
@[simp] theorem State.start_program (s : State) (x : Xform) (e : Executor) : (s.start x e).program = s.program := rfl
@[simp] theorem State.start_replies (s : State) (x : Xform) (e : Executor) : (s.start x e).replies = s.replies := rfl
@[simp] theorem State.start_resetPulses (s : State) (x : Xform) (e : Executor) : (s.start x e).resetPulses = s.resetPulses := rfl
@[simp] theorem State.start_schedule (s : State) (x : Xform) (e : Executor) : (s.start x e).schedule = s.schedule := rfl
@[simp] theorem State.start_draws (s : State) (x : Xform) (e : Executor) : (s.start x e).draws = s.draws := rfl
@[simp] theorem State.start_epoch (s : State) (x : Xform) (e : Executor) : (s.start x e).epoch = s.epoch := rfl
@[simp] theorem State.start_luminance_gray (s : State) (e : Executor) : (s.start .luminance e).gray = Memory.filled 0 := rfl
@[simp] theorem State.start_luminance_rgba (s : State) (e : Executor) : (s.start .luminance e).rgba = s.rgba := rfl
@[simp] theorem State.start_convolution_gray (s : State) (e : Executor) : (s.start .convolution e).gray = s.gray := rfl
@[simp] theorem State.start_convolution_rgba (s : State) (e : Executor) : (s.start .convolution e).rgba = Memory.filled Pixel.zero := rfl

@[simp] theorem Status.started_busy (st : Status) : st.started.busy = true := rfl
@[simp] theorem Status.started_done (st : Status) : st.started.done = false := rfl
@[simp] theorem Status.started_errOp (st : Status) : st.started.errOp = st.errOp := rfl
@[simp] theorem Status.started_errDim (st : Status) : st.started.errDim = st.errDim := rfl
@[simp] theorem Status.started_errBusy (st : Status) : st.started.errBusy = st.errBusy := rfl
@[simp] theorem Status.started_errLock (st : Status) : st.started.errLock = st.errLock := rfl
@[simp] theorem Status.started_errRange (st : Status) : st.started.errRange = st.errRange := rfl
@[simp] theorem Status.started_errAddr (st : Status) : st.started.errAddr = st.errAddr := rfl
@[simp] theorem Status.joined_busy (st : Status) : st.joined.busy = false := rfl
@[simp] theorem Status.joined_done (st : Status) : st.joined.done = true := rfl
@[simp] theorem Status.joined_errOp (st : Status) : st.joined.errOp = st.errOp := rfl
@[simp] theorem Status.joined_errDim (st : Status) : st.joined.errDim = st.errDim := rfl
@[simp] theorem Status.joined_errBusy (st : Status) : st.joined.errBusy = st.errBusy := rfl
@[simp] theorem Status.joined_errLock (st : Status) : st.joined.errLock = st.errLock := rfl
@[simp] theorem Status.joined_errRange (st : Status) : st.joined.errRange = st.errRange := rfl
@[simp] theorem Status.joined_errAddr (st : Status) : st.joined.errAddr = st.errAddr := rfl

@[simp] theorem Status.raise_busy (e : ErrFlag) (st : Status) : (st.raise e).busy = st.busy := by cases e <;> rfl
@[simp] theorem Status.raise_done (e : ErrFlag) (st : Status) : (st.raise e).done = st.done := by cases e <;> rfl

/-- Raising a flag sets it and no other. -/
theorem Status.has_raise (e f : ErrFlag) (st : Status) :
    (st.raise e).has f = (decide (f = e) || st.has f) := by
  cases e <;> cases f <;> rfl

@[simp] theorem Status.has_started (f : ErrFlag) (st : Status) : st.started.has f = st.has f := by cases f <;> rfl
@[simp] theorem Status.has_joined (f : ErrFlag) (st : Status) : st.joined.has f = st.has f := by cases f <;> rfl

end Sys2Proof.Machine
end

