-- ==== Sys2Proof/Laws/Step.lean ====
section
/-! SUPPORT. What a step can do, said once: the agent picked, then the host's effect, a WORKER step, JOIN or reset. -/

namespace Sys2Proof.Machine

/-! The choice of the agent -/

theorem firstScheduled_enabled {s : State} {l rest : List Agent} {a : Agent}
    (h : s.firstScheduled l = some (a, rest)) : s.enabled a = true := by
  induction l with
  | nil => simp [State.firstScheduled] at h
  | cons b more ih =>
    simp only [State.firstScheduled] at h
    split at h
    · simp_all
    · exact ih h

/-- The agent picked is enabled, and the choice touches the schedule and the draw count alone. -/
theorem pick_spec {s t : State} {a : Agent} (h : s.pick = some (a, t)) :
    s.enabled a = true ∧ ∃ order n, t = { s with schedule := order, draws := n } := by
  unfold State.pick at h
  split at h
  · rename_i b rest hb
    obtain ⟨rfl, rfl⟩ := by simpa using h
    exact ⟨firstScheduled_enabled hb, _, _, rfl⟩
  · split at h
    · simp at h
    · rename_i b hb
      obtain ⟨rfl, rfl⟩ := by simpa using h
      have : b ∈ s.agents.filter s.enabled := by simp [hb]
      exact ⟨(List.mem_filter.1 this).2, _, _, rfl⟩
    · rename_i b c more hb
      simp only [Option.some.injEq, Prod.mk.injEq] at h
      obtain ⟨h, rfl⟩ := h
      have hl : Config.anyAgent s.draws % (more.length + 2) < (b :: c :: more).length :=
        Nat.mod_lt _ (by simp)
      rw [List.getD_eq_getElem _ _ hl] at h
      have : a ∈ s.agents.filter s.enabled := by rw [hb, ← h]; exact List.getElem_mem hl
      exact ⟨(List.mem_filter.1 this).2, _, _, rfl⟩

/-- A scheduled agent that is enabled moves. -/
theorem pick_of_scheduled {s : State} {a : Agent} {rest : List Agent} (hs : s.schedule = a :: rest)
    (ha : s.enabled a = true) : s.pick = some (a, { s with schedule := rest }) := by
  simp [State.pick, hs, State.firstScheduled, ha]

/-- A step idles or is the step of the agent picked. -/
theorem step_cases {s t : State} (h : step s = .next t) :
    (s.pick = none ∧ t = s) ∨ ∃ a u, s.pick = some (a, u) ∧ agentStep a u = .next t := by
  unfold step at h
  split at h
  · rename_i hp
    exact .inl ⟨hp, by simpa using h.symm⟩
  · rename_i a u hp
    exact .inr ⟨a, u, hp, h⟩

theorem mover_of_pick {s u : State} {a : Agent} (h : s.pick = some (a, u)) : s.mover = some a := by
  simp [State.mover, h]

/-! The host -/

/-- What one operation of the host can do to the state. -/
inductive HostEffect (s : State) : State → Prop where
  /-- No flag and no data change: a served read, or a write of PX_X or PX_Y. -/
  | quiet (px py : Half) (ops : List HostOp) (answers : List (BitVec 5 × Word)) :
      HostEffect s { s with pxX := px, pxY := py, program := ops, replies := answers }
  /-- A refusal raises one flag. -/
  | flagged (e : ErrFlag) (ops : List HostOp) (answers : List (BitVec 5 × Word)) (n : Nat) :
      HostEffect s { s with status := s.status.raise e, program := ops, replies := answers, draws := n }
  /-- WIDTH or HEIGHT is written, between calls. -/
  | config (hb : s.status.busy = false) (w h : Half) (ops : List HostOp) :
      HostEffect s { s with width := w, height := h, program := ops }
  /-- One source cell is written, between calls, at the selected cell in range. -/
  | source (hb : s.status.busy = false) (hr : s.inRange = true) (p : Sample) (ops : List HostOp) :
      HostEffect s { s with src := s.src.set (cellKey s.pxX.toNat s.pxY.toNat) p, program := ops }
  /-- A command is accepted and started, between calls. -/
  | started (hb : s.status.busy = false) (hd : s.dimsLegal = true) (i : Instr) (rest : List HostOp)
      (hp : s.program = .write 0 (encode i) :: rest) :
      HostEffect s (({ s with program := rest } : State).start i.xform i.executor)

/-- A read changes nothing, or raises one flag and may draw a free value. -/
theorem hostRead_state (idx : BitVec 5) (s : State) :
    (hostRead idx s).2 = s ∨ ∃ e, (hostRead idx s).2 = s.refuse e ∨ (hostRead idx s).2 = (s.refuseRead e).2 := by
  unfold hostRead
  split <;> (try exact .inl rfl)
  · unfold readSource; split <;> [exact .inl rfl; exact .inr ⟨.range, .inr rfl⟩]
  · unfold readSource; split <;> [exact .inl rfl; exact .inr ⟨.range, .inr rfl⟩]
  · unfold readGrayData
    split <;> [exact .inr ⟨.lock, .inr rfl⟩; split <;> [exact .inl rfl; exact .inr ⟨.range, .inr rfl⟩]]
  · unfold readRgbaData
    split <;> [exact .inr ⟨.lock, .inr rfl⟩; split <;> [exact .inl rfl; exact .inr ⟨.range, .inr rfl⟩]]
  · split <;> [exact .inl rfl; exact .inr ⟨.addr, .inl rfl⟩]

theorem encode_of_decode {w : Word} {i : Instr} (h : decode w = .ok i) : encode i = w := by
  unfold decode at h
  split at h
  · rename_i hl
    simp only [commandWordLegal, beq_iff_eq, zeroField] at hl
    obtain rfl := by simpa using h
    have hn : w.toNat / 4 = 0 := by
      have hz : (w.extractLsb' 2 30).toNat = 0 := by rw [hl]; rfl
      simp only [BitVec.extractLsb'_toNat, Nat.shiftRight_eq_div_pow] at hz
      have hw := w.isLt
      omega
    have h4 : w.toNat < 4 := by omega
    have hw : w = BitVec.ofNat 32 w.toNat := by simp
    generalize w.toNat = n at hw h4
    subst hw
    interval_cases n <;> rfl
  · simp at h

theorem exec_eq (i : Instr) (s : State) : exec i s = .next (s.offer i.xform i.executor) := by cases i <;> rfl

theorem hostEffect_reply (s : State) (idx : BitVec 5) (ops : List HostOp) :
    HostEffect s (replyTo idx { s with program := ops }) := by
  rcases hostRead_state idx { s with program := ops } with h | ⟨e, h | h⟩ <;> simp only [replyTo, h]
  · exact .quiet ..
  · exact .flagged ..
  · exact .flagged ..

theorem hostEffect_source (s : State) (put : Sample → Sample) (ops : List HostOp) :
    HostEffect s (writeSource put { s with program := ops }) := by
  unfold writeSource
  split <;> [exact .flagged ..; split]
  · rename_i hb hr; exact HostEffect.source (s := s) (by simpa using hb) hr _ _
  · exact .flagged ..

/-- The host's step never faults, and its effect is one of `HostEffect`. -/
theorem hostStep_effect (s : State) : ∃ t, hostStep s = .next t ∧ HostEffect s t := by
  unfold hostStep
  split
  · exact ⟨s, rfl, .quiet ..⟩
  · rename_i idx v rest hp
    unfold hostWrite
    split
    · rename_i h0
      obtain rfl : idx = 0 := BitVec.eq_of_toNat_eq (by simpa using h0)
      unfold writeCommand
      split
      · rename_i i hi
        rw [exec_eq]
        refine ⟨_, rfl, ?_⟩
        unfold State.offer
        split <;> [exact .flagged ..; split]
        · rename_i hb hd
          exact HostEffect.started (s := s) (by simpa using hb) hd i rest (by rw [encode_of_decode hi, hp])
        · exact .flagged ..
      · refine ⟨_, rfl, ?_⟩
        unfold State.offerIllegal
        split <;> exact .flagged ..
    · refine ⟨_, rfl, ?_⟩
      unfold writeWidth
      split <;> [exact .flagged ..; (rename_i hb; exact .config (by simpa using hb) ..)]
    · refine ⟨_, rfl, ?_⟩
      unfold writeHeight
      split <;> [exact .flagged ..; (rename_i hb; exact .config (by simpa using hb) ..)]
    · exact ⟨_, rfl, .quiet ..⟩
    · exact ⟨_, rfl, .quiet ..⟩
    · exact ⟨_, rfl, hostEffect_source ..⟩
    · exact ⟨_, rfl, hostEffect_source ..⟩
    · exact ⟨_, rfl, .flagged ..⟩
  · exact ⟨_, rfl, hostEffect_reply ..⟩
  · exact ⟨_, rfl, hostEffect_reply ..⟩

/-! The engine -/

/-- What a WORKER step that answers a next state did. -/
theorem workerStep_cases {i : Nat} {s t : State} (hr : s.workerReady i = true) (h : workerStep i s = .next t) :
    ∃ w, s.workers[i]? = some w ∧ w.fin = false ∧
      ((s.lxform = .luminance ∧ s.cellExists w.cx.toNat w.cy.toNat = true
          ∧ t = (s.writeGray w.cx.toNat w.cy.toNat (luminance (s.srcAt w.cx.toNat w.cy.toNat))).advanceWorker i w)
        ∨ (s.lxform = .convolution ∧ s.neighboursExist w.cx.toNat w.cy.toNat = true
          ∧ t = (s.writeRgba w.cx.toNat w.cy.toNat (sharpCell s.srcAt w.cx.toNat w.cy.toNat)).advanceWorker i w)) := by
  unfold workerStep at h
  unfold State.workerReady at hr
  split at h
  · simp_all
  · rename_i w hw
    refine ⟨w, hw, by simp_all, ?_⟩
    have hr' : s.workerReady i = true := hr
    rw [if_pos hr'] at h
    split at h
    · rename_i hx
      simp only [grayWorkerStep] at h
      split at h
      · exact .inl ⟨hx, by assumption, by simpa using h.symm⟩
      · simp at h
    · rename_i hx
      simp only [sharpWorkerStep] at h
      split at h
      · exact .inr ⟨hx, by assumption, by simpa using h.symm⟩
      · simp at h

/-- A step, by the agent that took it. The choice of the agent has changed the schedule and the draw count alone. -/
theorem step_by_agent {s t : State} (h : step s = .next t) :
    (s.mover = none ∧ t = s) ∨ ∃ order n, ∃ u : State, u = { s with schedule := order, draws := n } ∧
      ((s.mover = some .host ∧ s.enabled .host = true ∧ HostEffect u t)
        ∨ (s.mover = some .sequencer ∧ s.joinReady = true ∧ t = u.join)
        ∨ (∃ i, s.mover = some (.worker i) ∧ s.workerReady i = true ∧ workerStep i u = .next t)
        ∨ (s.mover = some .resetLine ∧ t = State.resetEngine { u with resetPulses := u.resetPulses - 1 })) := by
  rcases step_cases h with ⟨hp, rfl⟩ | ⟨a, u, hp, ha⟩
  · exact .inl ⟨by simp [State.mover, hp], rfl⟩
  · obtain ⟨he, order, n, hu⟩ := pick_spec hp
    refine .inr ⟨order, n, u, hu, ?_⟩
    have hm := mover_of_pick hp
    cases a with
    | host =>
      obtain ⟨t', ht', hf⟩ := hostStep_effect u
      obtain rfl : t' = t := by simpa [agentStep, ht'] using ha
      exact .inl ⟨hm, he, hf⟩
    | sequencer =>
      have hj : s.joinReady = true := he
      have hj' : u.joinReady = true := by rw [hu]; exact hj
      exact .inr (.inl ⟨hm, hj, by simpa [agentStep, hj'] using ha.symm⟩)
    | worker i => exact .inr (.inr (.inl ⟨i, hm, he, ha⟩))
    | resetLine => exact .inr (.inr (.inr ⟨hm, by simpa [agentStep] using ha.symm⟩))

end Sys2Proof.Machine
end

