-- ==== Sys2Proof/Laws/Ops.lean ====
section
/-! SUPPORT. Everything the shared operations can do, said once: the checks, offering a command, loading the workers,
advancing a cursor. -/

namespace Sys2Proof.Machine

theorem dimsLegal_iff (s : State) : s.dimsLegal = true ↔
    1 ≤ s.width.toNat ∧ s.width.toNat ≤ s.xmax.toNat ∧ 1 ≤ s.height.toNat ∧ s.height.toNat ≤ s.ymax.toNat := by
  simp [State.dimsLegal]; omega

theorem inRange_iff (s : State) :
    s.inRange = true ↔ s.pxX < s.width ∧ s.pxX < s.xmax ∧ s.pxY < s.height ∧ s.pxY < s.ymax := by
  simp [State.inRange, BitVec.lt_def, and_assoc]

theorem contains_iff (b : Bounds) (x y : Nat) :
    b.contains x y = true ↔ b.xlo ≤ x ∧ x < b.xhi ∧ b.ylo ≤ y ∧ y < b.yhi := by
  simp [Bounds.contains, and_assoc]

/-- A command offered is refused with one of two flags, or started. -/
theorem offer_cases (s : State) (x : Xform) (e : Executor) :
    (s.status.busy = true ∧ s.offer x e = s.refuse .busy)
      ∨ (s.status.busy = false ∧ s.dimsLegal = false ∧ s.offer x e = s.refuse .dim)
      ∨ (s.status.busy = false ∧ s.dimsLegal = true ∧ s.offer x e = s.start x e) := by
  unfold State.offer
  cases s.status.busy <;> cases s.dimsLegal <;> simp

/-- A command is started exactly as `Accepts` says. -/
theorem offer_of_accepts {s : State} (h : s.Accepts) (x : Xform) (e : Executor) : s.offer x e = s.start x e := by
  simp [State.offer, h.1, (dimsLegal_iff s).2 h.2]

/-- A write of a command's word to CMD is `exec` of the command. -/
theorem hostWrite_encode (i : Instr) (s : State) : hostWrite 0 (encode i) s = exec i s := by cases i <;> rfl

/-- What START makes of worker `i`. -/
theorem startWorkers_get (x : Xform) (W H N : Nat) (ws : List Worker) {i : Nat} (h : i < ws.length) :
    (startWorkers x W H N ws)[i]?
      = some (if i < N then startedWorker x W H N i else { ws[i] with fin := true }) := by
  simp [startWorkers, h]

@[simp] theorem startWorkers_length (x : Xform) (W H N : Nat) (ws : List Worker) :
    (startWorkers x W H N ws).length = ws.length := by simp [startWorkers]

@[simp] theorem advance_bstart (b : Bounds) (w : Worker) : (w.advance b).bstart = w.bstart := by
  unfold Worker.advance; dsimp only; split <;> split <;> rfl

@[simp] theorem advance_bend (b : Bounds) (w : Worker) : (w.advance b).bend = w.bend := by
  unfold Worker.advance; dsimp only; split <;> split <;> rfl

/-- Raising a flag sets that flag and clears none. -/
theorem has_raise (e f : ErrFlag) (st : Status) : (st.raise e).has f = true ↔ e = f ∨ st.has f = true := by
  cases e <;> cases f <;> simp [Status.raise, Status.has]

end Sys2Proof.Machine
end

