-- ==== Sys2Proof/Laws/PerInstr.lean ====
section
/-! SUPPORT. Statements made per command: each command word has format C (R90). -/

namespace Sys2Proof.Laws.FormatC

/-- The word of a command has its XFORM and EXEC at bits 0 and 1 and zeros above, and the command is well formed. -/
def Statement (i : Instr) : Prop :=
  i.wellFormed = true ∧ commandWordLegal (encode i) = true ∧ wordXform (encode i) = i.xform
    ∧ wordExecutor (encode i) = i.executor

theorem graySeq : Statement .graySeq := by unfold Statement; decide

theorem sharpSeq : Statement .sharpSeq := by unfold Statement; decide

theorem grayPar : Statement .grayPar := by unfold Statement; decide

theorem sharpPar : Statement .sharpPar := by unfold Statement; decide

end Sys2Proof.Laws.FormatC
end

