-- ==== Sys2Proof/Tests/Slice0.lean ====
section
/-! SUPPORT. The model's own tests: the spec's worked values (95_test_vectors and the examples of the rules), one step
each, and for every obligation with hypotheses a concrete state and operands that meet them. -/

namespace Sys2Proof.Tests

open Sys2Proof Sys2Proof.Machine

/-- The state a step leads to. -/
def nextOf : Host.Outcome State Fault Refusal → State
  | .next t => t
  | .fault _ => State.reset
  | .refused _ => State.reset

/-- The image of program P2. -/
def imageP2 : Memory Sample :=
  ⟨none,
    [(0, ⟨0x1000, 0x2000, 0xFFFF, 0⟩), (1, ⟨0x1000, 0x4000, 0xFFFF, 0x1234⟩), (2, ⟨0x1000, 0x2000, 0xFFFF, 0⟩),
     (65536, ⟨0x1000, 0x4000, 0xFFFF, 0⟩), (65537, ⟨0x3000, 0x0100, 0x0000, 0xFFFF⟩),
     (65538, ⟨0x1000, 0x4000, 0xFFFF, 0⟩), (131072, ⟨0x1000, 0x2000, 0xFFFF, 0⟩),
     (131073, ⟨0x1000, 0x4000, 0xFFFF, 0⟩), (131074, ⟨0x1000, 0x2000, 0xFFFF, 0⟩)]⟩

/-- An idle engine of `n` workers and capacity 4 x 4 that holds the image of P2 under a `w` x `h` window. -/
def engine (n w h : Half) : State := { State.atReset n 4 4 0 with width := w, height := h, src := imageP2 }

/-- That engine just after it started a command. -/
def started (i : Instr) (n w h : Half) : State := nextOf (exec i (engine n w h))

/-- The same with a host program and a schedule. -/
def withHost (s : State) (ops : List HostOp) (order : List Agent) : State :=
  { s with program := ops, schedule := order }

/-! Words -/

/-- The check on command words refuses the words next to the legal ones (V7). -/
theorem test_illegal_words_refused :
    commandWordLegal 0x00000004#32 = false ∧ commandWordLegal 0x80000000#32 = false
      ∧ commandWordLegal 0x00000003#32 = true := by decide

/-- The four words of R93 written out bit by bit, EXEC then XFORM last. -/
theorem test_decode_words :
    decodeTableWord 32 0b00000000000000000000000000000000 = some .graySeq
      ∧ decodeTableWord 32 0b00000000000000000000000000000001 = some .sharpSeq
      ∧ decodeTableWord 32 0b00000000000000000000000000000010 = some .grayPar
      ∧ decodeTableWord 32 0b00000000000000000000000000000011 = some .sharpPar
      ∧ decodeTableWord 32 0b10000000000000000000000000000011 = none := by decide

/-- P2, line 3, and P4, line 9: host notation as operations. -/
theorem test_host_notation :
    putPx 1 0 ⟨0x1000, 0x4000, 0xFFFF, 0x1234⟩
        = [.write 5 1, .write 6 0, .write 7 0x40001000, .write 8 0x1234FFFF]
      ∧ runCommand .grayPar = [.write 0 2, .wait] := by decide

/-! Arithmetic of the spec's vectors -/

/-- V1. -/
theorem test_luminance :
    [0x0000#16, 0x0001#16, 0x00FF#16, 0x0100#16, 0x0101#16, 0x1234#16, 0x7FFF#16, 0x8000#16, 0x80FF#16, 0xFEFF#16,
        0xFF00#16, 0xFFFF#16].map (fun r => luminance ⟨r, 0xFFFF, 0xFFFF, 0xFFFF⟩)
      = [0x00#8, 0x00#8, 0x00#8, 0x01#8, 0x01#8, 0x12#8, 0x7F#8, 0x80#8, 0x80#8, 0xFE#8, 0xFF#8, 0xFF#8] := by decide

/-- V2. -/
theorem test_reduce :
    [-262140, -257, -256, -255, -1, 0, 1, 255, 256, 257, 45056, 65279, 65280, 65535, 65536, 327675].map
        (fun v => (reduceSum (BitVec.ofInt 32 v)).toNat)
      = [0, 0, 0, 0, 0, 0, 0, 0, 1, 1, 176, 254, 255, 255, 255, 255] := by decide

/-- One lane of a neighbourhood: centre, up, down, left, right, and 0xFFFF in the corners. -/
def cross (c u d l r : Half) (row col : Nat) : Half :=
  match row, col with
  | 1, 1 => c
  | 0, 1 => u
  | 2, 1 => d
  | 1, 0 => l
  | 1, 2 => r
  | _, _ => 0xFFFF

/-- V3: sums. -/
theorem test_lane_sums :
    [laneSum kernel (cross 0xFFFF 0 0 0 0), laneSum kernel (cross 0 0xFFFF 0xFFFF 0xFFFF 0xFFFF),
        laneSum kernel (cross 0x3000 0x1000 0x1000 0x1000 0x1000),
        laneSum kernel (cross 0x0100 0x4000 0x4000 0x4000 0x4000),
        laneSum kernel (cross 0x8000 0xFFFF 0 0xFFFF 0)].map BitVec.toInt
      = [327675, -262140, 45056, -64256, 32770] := by decide

/-- V3: outputs. -/
theorem test_lane_outputs :
    [convolveLane kernel (cross 0x8000 0x8000 0x8000 0x8000 0x8000), convolveLane kernel (cross 0xFFFF 0 0 0 0),
        convolveLane kernel (cross 0x0180 0x0080 0 0 0), convolveLane kernel (cross 0 1 0 0 0),
        convolveLane kernel (cross 13108 0 0 0 0), convolveLane kernel (cross 52 4 0 0 0),
        convolveLane kernel (cross 52 5 0 0 0), convolveLane kernel (cross 0 0 0 0 0)].map BitVec.toNat
      = [128, 255, 7, 0, 255, 1, 0, 0] := by decide

/-- R110, R113, R114, R117. -/
theorem test_bands :
    (List.range 4).map (band 10 4) = [(0, 2), (2, 4), (4, 6), (6, 10)]
      ∧ (List.range 7).map (band 100 7) = [(0, 14), (14, 28), (28, 42), (42, 56), (56, 70), (70, 84), (84, 100)]
      ∧ (List.range 5).map (band 2 5) = [(0, 0), (0, 0), (0, 0), (0, 0), (0, 2)]
      ∧ (List.range 2).map (band 65535 2) = [(0, 32767), (32767, 65535)] := by decide

/-- V5: the rows of SHARP.PAR for H = 5, N = 3; H = 3, N = 3; H = 1, N = 1. -/
theorem test_clipped_rows :
    (List.range 3).map (fun i => let b := loopBounds .convolution 4 5 (band 5 3 i).1 (band 5 3 i).2
        (b.ylo, b.yhi, b.isEmpty)) = [(1, 1, true), (1, 2, false), (2, 4, false)]
      ∧ (List.range 3).map (fun i => (loopBounds .convolution 4 3 (band 3 3 i).1 (band 3 3 i).2).isEmpty)
        = [true, false, true]
      ∧ (loopBounds .convolution 4 1 0 1).isEmpty = true := by decide

/-! The host port -/

/-- V6, with NWORK = 3 and XMAX = YMAX = 8. -/
theorem test_reset_reads :
    let s := State.atReset 3 8 8 0
    [1#5, 2#5, 4#5, 11#5, 0#5, 16#5, 17#5, 20#5, 24#5].map (fun i => (hostRead i s).1)
        = [0, 0, 3, 0x00080008, 0, 0, 0xFFFFFFFF, 5, 0]
      ∧ (hostRead 12 s).2.status.word = 0x00002000
      ∧ (hostRead 7 (hostRead 12 s).2).2.status.word = 0x00003000 := by decide

/-- V7: STATUS after a write offered to an idle engine with WIDTH = HEIGHT = 2 and capacity 8 x 8. -/
theorem test_refusals_idle :
    let s := { State.atReset 3 8 8 0 with width := 2, height := 2 }
    let after := fun (idx : BitVec 5) (v : Word) (s : State) => (nextOf (hostWrite idx v s)).status.word
    after 0 3 s = 0x001 ∧ after 0 4 s = 0x100 ∧ after 0 0x80000000 s = 0x100
      ∧ after 0 0 { s with width := 8 } = 0x001 ∧ after 0 0 { s with width := 9 } = 0x200
      ∧ after 0 0 { s with height := 0 } = 0x200
      ∧ after 7 1 { s with pxX := 1, pxY := 1 } = 0 ∧ after 7 1 { s with pxX := 2, pxY := 1 } = 0x1000
      ∧ after 4 1 s = 0x2000 ∧ after 9 1 s = 0x2000
      ∧ (nextOf (hostWrite 2 0x00010004 s)).width = 4 := by decide

/-- V7: the rows with BUSY = 1. -/
theorem test_refusals_busy :
    let s := { State.atReset 3 8 8 0 with width := 2, height := 2, status := { Status.reset with busy := true } }
    let after := fun (idx : BitVec 5) (v : Word) (s : State) => (nextOf (hostWrite idx v s)).status.word
    after 0 0 s = 0x401 ∧ after 0 4 s = 0x401 ∧ after 7 1 { s with pxX := 1, pxY := 1 } = 0x801
      ∧ after 7 1 { s with pxX := 2, pxY := 1 } = 0x801 ∧ after 2 5 s = 0x801
      ∧ (hostRead 7 { s with pxX := 1, pxY := 1 }).2.status.word = 0x001
      ∧ (hostRead 9 { s with pxX := 1, pxY := 1 }).2.status.word = 0x801
      ∧ (nextOf (hostWrite 5 5 s)).pxX = 5 := by decide

/-- R127: a gray cell viewed as colour has equal components. -/
theorem test_gray_as_colour : grayAsRGB 0x12 = (0x12, 0x12, 0x12) := by decide

/-! The commands, one step each -/

/-- R124: START of GRAY.SEQ on 3 x 3. -/
theorem test_gray_seq_start :
    (started .graySeq 2 3 3).workers = [⟨0, 3, 0, 0, false⟩, ⟨0, 0, 0, 0, true⟩]
      ∧ (started .graySeq 2 3 3).status.word = 1 := by decide

/-- R124: the pixel of a 1 x 1 image; R = 0x1000 gives 0x10. -/
theorem test_gray_seq_pixel :
    let t := nextOf (workerStep 0 (started .graySeq 2 1 1))
    t.grayAt 0 0 = 0x10 ∧ t.grayAt 1 0 = 0 ∧ t.joinReady = true := by decide

/-- P1, line 6: START of GRAY.PAR on 4 x 4 with three workers. -/
theorem test_gray_par_start :
    (started .grayPar 3 4 4).workers = [⟨0, 1, 0, 0, false⟩, ⟨1, 2, 0, 1, false⟩, ⟨2, 4, 0, 2, false⟩] := by decide

/-- P4, line 9: one row and three workers leave the last worker alone with work. -/
theorem test_gray_par_few_rows :
    (started .grayPar 3 2 1).workers.map (fun w => (w.bstart, w.bend, w.fin))
      = [(0, 0, true), (0, 0, true), (0, 1, false)] := by decide

/-- R143: START of SHARP.SEQ on 3 x 3. -/
theorem test_sharp_seq_start :
    (started .sharpSeq 2 3 3).workers = [⟨0, 3, 1, 1, false⟩, ⟨0, 0, 0, 0, true⟩]
      ∧ (started .sharpSeq 2 3 3).rgbaAt 1 1 = ⟨0, 0, 0, 0⟩ := by decide

/-- R146: SHARP.SEQ on 2 x 3 has no pixel to process. -/
theorem test_sharp_seq_no_interior : (started .sharpSeq 2 2 3).joinReady = true := by decide

/-- R163: START of SHARP.PAR with WIDTH = 4, HEIGHT = 5, NWORK = 3. -/
theorem test_sharp_par_start :
    let t := nextOf (hostWrite 0 3 { State.atReset 3 8 8 0 with width := 4, height := 5 })
    t.workers = [⟨0, 1, 1, 1, true⟩, ⟨1, 2, 1, 1, false⟩, ⟨2, 5, 1, 2, false⟩] ∧ t.neff = 3 ∧ t.status.word = 1 := by
  decide

/-- P2: the one pixel of SHARP.PAR reads 0xFF0000B0, and its neighbour stays zero. -/
theorem test_sharp_par_pixel :
    let t := nextOf (workerStep 1 (started .sharpPar 2 3 3))
    (t.rgbaAt 1 1).word = 0xFF0000B0 ∧ (t.rgbaAt 2 1).word = 0 ∧ t.joinReady = true := by decide

/-! For each obligation with hypotheses, a state and operands that meet them -/

theorem test_meets_DecodingReadsTheFormat :
    (0x00000004#32).extractLsb' 2 30 ≠ 0 ∧ (0xFFFFFFFF#32).extractLsb' 2 30 ≠ 0
      ∧ (0x00000003#32).extractLsb' 2 30 = 0 := by decide

theorem test_meets_DecodeAndEncodeAgree :
    Instr.wellFormed .sharpPar = true ∧ decode 0x00000003#32 = .ok .sharpPar := ⟨rfl, rfl⟩

theorem test_meets_StepRunsTheDecodedCommand :
    let s := (State.atReset 3 8 8 0).withFetchWord 32 2
    s.pick = some (.host, { s with schedule := [] }) ∧ s.program = .write 0 2 :: [] ∧ decode 2 = .ok .grayPar
      ∧ Instr.wellFormed .grayPar = true := ⟨rfl, rfl, rfl, rfl⟩

theorem test_meets_IllegalWordRaisesErrOp :
    (engine 2 3 3).status.busy = false ∧ (0x00000004#32).extractLsb' 2 30 ≠ 0 := by decide

theorem test_meets_CommandDuringACallRaisesErrBusy : (started .grayPar 2 3 3).status.busy = true := by decide

/-- Each way the dimensions can be out of range at its nearest value, and a START. -/
theorem test_meets_BadDimensionsRaiseErrDim :
    (engine 2 0 4).status.busy = false ∧ (engine 2 0 4).width = 0 ∧ (engine 2 5 4).xmax < (engine 2 5 4).width
      ∧ (engine 2 4 0).height = 0 ∧ (engine 2 4 5).ymax < (engine 2 4 5).height
      ∧ (started .graySeq 2 4 4).status.busy = true := by decide

/-- The smallest and the largest image; GraySeqStarts, GrayParStarts, SharpSeqStarts, SharpParStarts, WorkLeftAtStart. -/
theorem test_meets_command_starts :
    (engine 2 1 1).Accepts ∧ (engine 2 1 1).ControlInv ∧ (engine 2 4 4).Accepts ∧ (engine 2 4 4).ControlInv := by
  decide

theorem test_meets_CommandFrame :
    exec .sharpPar (engine 2 3 3) = .next (started .sharpPar 2 3 3) ∧ Instr.xform .sharpPar = .convolution
      ∧ exec .graySeq (engine 2 3 3) = .next (started .graySeq 2 3 3) ∧ Instr.xform .graySeq = .luminance
      ∧ ((engine 2 3 3).refuse .range).status.has .range = true := ⟨rfl, rfl, rfl, rfl, rfl⟩

theorem test_meets_SharpWithoutInteriorJoinsAtOnce :
    Instr.xform .sharpSeq = .convolution ∧ (engine 2 2 4).Accepts ∧ (engine 2 2 4).ControlInv
      ∧ (engine 2 2 4).width.toNat < 3 ∧ (engine 2 4 2).Accepts ∧ (engine 2 4 2).height.toNat < 3 := by decide

/-- GrayCallCompletes and SharpCallCompletes. -/
theorem test_meets_call_completions :
    Instr.xform .grayPar = .luminance ∧ Instr.xform .sharpPar = .convolution ∧ (engine 2 3 3).Inv
      ∧ (engine 2 3 3).Accepts := ⟨rfl, rfl, ⟨by decide, by decide, by decide⟩, by decide⟩

/-- A GRAY call of one pixel: START, one WORKER step, JOIN. -/
theorem test_meets_EveryScheduleGivesGrayOut :
    ∃ u, Instr.xform .graySeq = .luminance ∧ (engine 1 1 1).Inv ∧ (engine 1 1 1).status.busy = false
      ∧ exec .graySeq (engine 1 1 1) = .next (started .graySeq 1 1 1)
      ∧ (started .graySeq 1 1 1).status.busy = true ∧ CallEndsAt (started .graySeq 1 1 1) u :=
  ⟨nextOf (step (nextOf (step (started .graySeq 1 1 1)))), rfl, ⟨by decide, by decide, by decide⟩, rfl, rfl, rfl,
    2, ⟨rfl, _, rfl, rfl, _, rfl, rfl⟩, rfl, rfl⟩

/-- A SHARP call of one interior pixel: START, one WORKER step, JOIN. -/
theorem test_meets_EveryScheduleGivesSharpOut :
    ∃ u, Instr.xform .sharpSeq = .convolution ∧ (engine 1 3 3).Inv ∧ (engine 1 3 3).status.busy = false
      ∧ exec .sharpSeq (engine 1 3 3) = .next (started .sharpSeq 1 3 3)
      ∧ (started .sharpSeq 1 3 3).status.busy = true ∧ CallEndsAt (started .sharpSeq 1 3 3) u :=
  ⟨nextOf (step (nextOf (step (started .sharpSeq 1 3 3)))), rfl, ⟨by decide, by decide, by decide⟩, rfl, rfl,
    rfl, 2, ⟨rfl, _, rfl, rfl, _, rfl, rfl⟩, rfl, rfl⟩

/-- One engine of one worker and one of two, the same image, GRAY.SEQ against GRAY.PAR. -/
theorem test_meets_ExecutorsAndWorkerCountsAgree :
    ∃ u u', Instr.xform .graySeq = Instr.xform .grayPar ∧ (engine 1 1 1).Inv ∧ (engine 2 1 1).Inv
      ∧ (engine 1 1 1).width = (engine 2 1 1).width ∧ (engine 1 1 1).height = (engine 2 1 1).height
      ∧ (engine 1 1 1).xmax = (engine 2 1 1).xmax ∧ (engine 1 1 1).ymax = (engine 2 1 1).ymax
      ∧ (∀ x < 1, ∀ y < 1, (engine 1 1 1).srcAt x y = (engine 2 1 1).srcAt x y)
      ∧ (engine 1 1 1).status.busy = false ∧ (engine 2 1 1).status.busy = false
      ∧ exec .graySeq (engine 1 1 1) = .next (started .graySeq 1 1 1)
      ∧ exec .grayPar (engine 2 1 1) = .next (started .grayPar 2 1 1)
      ∧ (started .graySeq 1 1 1).status.busy = true ∧ (started .grayPar 2 1 1).status.busy = true
      ∧ CallEndsAt (started .graySeq 1 1 1) u ∧ CallEndsAt (started .grayPar 2 1 1) u' :=
  ⟨nextOf (step (nextOf (step (started .graySeq 1 1 1)))), nextOf (step (nextOf (step (started .grayPar 2 1 1)))),
    rfl, ⟨by decide, by decide, by decide⟩, ⟨by decide, by decide, by decide⟩, rfl, rfl, rfl, rfl,
    fun _ _ _ _ => rfl, rfl, rfl, rfl, rfl, rfl, rfl,
    ⟨2, ⟨rfl, _, rfl, rfl, _, rfl, rfl⟩, rfl, rfl⟩, ⟨2, ⟨rfl, _, rfl, rfl, _, rfl, rfl⟩, rfl, rfl⟩⟩

theorem test_meets_ResetMeetsTheMachineInvariant : (1#16) ≠ 0 ∧ (0xFFFF#16) ≠ 0 := by decide

/-- Every kind of step from a state that meets the invariant: a command, a WORKER step, JOIN, a reset during a call;
EveryStepKeepsTheMachineInvariant and NoStepFaults. -/
theorem test_meets_EveryStepKeepsTheMachineInvariant :
    (withHost (engine 2 3 3) [.write 0 3] []).Inv
      ∧ (∃ t, step (withHost (engine 2 3 3) [.write 0 3] []) = .next t ∧ t.status.busy = true)
      ∧ (started .sharpPar 2 3 3).Inv ∧ (∃ t, step (started .sharpPar 2 3 3) = .next t ∧ t.joinReady = true)
      ∧ (started .sharpPar 2 2 2).Inv ∧ (∃ t, step (started .sharpPar 2 2 2) = .next t ∧ t.status.done = true)
      ∧ ({ started .sharpPar 2 2 2 with resetPulses := 1, schedule := [.resetLine] } : State).Inv
      ∧ (∃ t, step { started .sharpPar 2 2 2 with resetPulses := 1, schedule := [.resetLine] } = .next t
          ∧ t.epoch = 1) :=
  ⟨⟨by decide, by decide, by decide⟩, ⟨_, rfl, rfl⟩, ⟨by decide, by decide, by decide⟩, ⟨_, rfl, rfl⟩,
    ⟨by decide, by decide, by decide⟩, ⟨_, rfl, rfl⟩, ⟨by decide, by decide, by decide⟩, ⟨_, rfl, rfl⟩⟩

/-- A WORKER step, and a refused write of the host, in the middle of a call; CallInputsAreConstant,
ParametersNeverChange, EveryWorkerStepDoesOnePixel. -/
theorem test_meets_steps_of_a_call :
    let s := withHost (started .grayPar 2 2 2) [.write 7 9] [.worker 1]
    let s' := withHost (started .grayPar 2 2 2) [.write 7 9] [.host]
    s.Inv ∧ s.status.busy = true ∧ s.mover = some (.worker 1)
      ∧ (∃ t, step s = .next t ∧ t.status.busy = true)
      ∧ s'.Inv ∧ s'.status.busy = true ∧ s'.mover = some .host
      ∧ ∃ t, step s' = .next t ∧ t.status.busy = true :=
  ⟨⟨by decide, by decide, by decide⟩, rfl, rfl, ⟨_, rfl, rfl⟩, ⟨by decide, by decide, by decide⟩, rfl, rfl,
    ⟨_, rfl, rfl⟩⟩

theorem test_meets_ErrorFlagsAreSticky :
    let s := withHost ((engine 2 2 2).refuse .op) [.write 0 0] []
    s.mover = some .host ∧ s.status.has .op = true ∧ ∃ t, step s = .next t ∧ t.status.busy = true :=
  ⟨rfl, rfl, _, rfl, rfl⟩

/-- BUSY rising, falling by JOIN with DONE rising, falling by reset, and DONE falling by a command and by reset. -/
theorem test_meets_BusyAndDoneChangeOnlyAsStated :
    (∃ t, step (withHost (engine 2 2 2) [.write 0 0] []) = .next t ∧ t.status.busy = true)
      ∧ (∃ t, step (started .sharpSeq 2 2 2) = .next t ∧ t.status.busy = false ∧ t.status.done = true)
      ∧ (∃ t, step { started .sharpSeq 2 2 2 with resetPulses := 1, schedule := [.resetLine] } = .next t
          ∧ t.status.busy = false ∧ t.status.done = false)
      ∧ (∃ t, step (withHost (started .sharpSeq 2 2 2).join [.write 0 0] []) = .next t ∧ t.status.done = false)
      ∧ ∃ t, step { (started .sharpSeq 2 2 2).join with resetPulses := 1 } = .next t ∧ t.status.done = false :=
  ⟨⟨_, rfl, rfl⟩, ⟨_, rfl, rfl, rfl⟩, ⟨_, rfl, rfl, rfl⟩, ⟨_, rfl, rfl⟩, ⟨_, rfl, rfl⟩⟩

/-- A GRAY call's WORKER step, a SHARP call's, and a host write between calls. -/
theorem test_meets_DestinationsChangeOnlyInTheirOwnCall :
    (∃ t, step (started .graySeq 1 2 2) = .next t ∧ (started .graySeq 1 2 2).mover = some (.worker 0)
        ∧ t.lxform = .luminance)
      ∧ (∃ t, step (started .sharpSeq 1 3 3) = .next t ∧ (started .sharpSeq 1 3 3).mover = some (.worker 0)
        ∧ t.lxform = .convolution)
      ∧ ∃ t, step (withHost (engine 1 2 2) [.write 2 1] []) = .next t
        ∧ (withHost (engine 1 2 2) [.write 2 1] []).mover = some .host
        ∧ (engine 1 2 2).status.busy = false ∧ t.status.busy = false :=
  ⟨⟨_, rfl, rfl, rfl⟩, ⟨_, rfl, rfl, rfl⟩, ⟨_, rfl, rfl, rfl, rfl⟩⟩

/-- A call whose workers all start finished, joined in the first step and idle for ever after. -/
def shortRun : Nat → State
  | 0 => started .sharpSeq 2 2 2
  | _ + 1 => (started .sharpSeq 2 2 2).join

theorem test_meets_FairCallsEnd :
    Execution shortRun ∧ WeaklyFair shortRun ∧ (shortRun 0).Inv ∧ (shortRun 0).status.busy = true := by
  refine ⟨fun n => by cases n <;> rfl, fun a ha n h => ?_, ⟨by decide, by decide, by decide⟩, rfl⟩
  have h1 := h (n + 1) (by omega)
  cases a <;> simp_all [shortRun, State.enabled, State.joinReady, State.workerReady, State.join, Status.joined,
    Agent.isEngine]

theorem test_meets_GrayWorkerStepWritesOneCell :
    let s := started .grayPar 2 3 3
    s.status.busy = true ∧ s.lxform = .luminance ∧ s.workers[1]? = some ⟨1, 3, 0, 1, false⟩
      ∧ s.cellExists 0 1 = true ∧ s.gray.wf = true := by decide

theorem test_meets_SharpWorkerStepWritesOneCell :
    let s := started .sharpPar 2 3 3
    s.status.busy = true ∧ s.lxform = .convolution ∧ s.workers[1]? = some ⟨1, 3, 1, 1, false⟩
      ∧ s.neighboursExist 1 1 = true ∧ s.rgba.wf = true := by decide

theorem test_meets_UnfinishedWorkersAccessTheImageOnly :
    (started .sharpPar 2 3 3).Inv ∧ (started .sharpPar 2 3 3).workerReady 1 = true
      ∧ (started .sharpPar 2 3 3).lxform = .convolution := ⟨⟨by decide, by decide, by decide⟩, rfl, rfl⟩

/-- Inside a row, at a row's end, at the last pixel, and at the largest bounds. -/
theorem test_meets_CursorVisitsRowMajor :
    let b := loopBounds .luminance 2 2 0 2
    b.contains 0 0 = true ∧ b.contains 1 0 = true ∧ b.contains 1 1 = true ∧ b.xhi ≤ 65535 ∧ b.yhi ≤ 65535
      ∧ ((Worker.mk 0 2 0 0 false).advance b).fin = false ∧ ((Worker.mk 0 2 1 0 false).advance b).fin = false
      ∧ ((Worker.mk 0 2 1 1 false).advance b).fin = true
      ∧ (loopBounds .luminance 65535 65535 0 65535).contains 65534 65534 = true := by decide

theorem test_meets_JoinClearsBusyAndSetsDone :
    (started .sharpPar 2 2 2).workers.length = 2 ∧ (started .sharpPar 2 2 2).nwork.toNat = 2
      ∧ (started .sharpPar 2 2 2).status.busy = true
      ∧ (∀ i < 2, ((started .sharpPar 2 2 2).worker i).fin = true)
      ∧ (started .sharpPar 2 3 3).workers.length = 2 ∧ (started .sharpPar 2 3 3).nwork.toNat = 2
      ∧ (started .sharpPar 2 3 3).status.busy = true
      ∧ ∃ i < 2, ((started .sharpPar 2 3 3).worker i).fin = false := by decide

theorem test_meets_ResetAbandonsTheCall :
    1 ≤ ({ started .grayPar 2 2 2 with resetPulses := 1 } : State).resetPulses ∧ (6#5).toNat < 7
      ∧ (nextOf (agentStep .resetLine { started .grayPar 2 2 2 with resetPulses := 1 })).epoch = 1 := by decide

/-- BandsTileTheRows and BandSizes, one worker, fewer rows than workers, and a row in the last band;
ClippedBandsTileTheInterior, both sides of each end of the interior. -/
theorem test_meets_bands :
    band 5 2 0 = (0, 2) ∧ band 5 2 1 = (2, 5) ∧ band 1 3 2 = (0, 1) ∧ (1 : Nat) < 3
      ∧ (∃ i < 3, max (band 5 3 i).1 1 ≤ 1 ∧ 1 < min (band 5 3 i).2 4)
      ∧ (∃ i < 3, max (band 5 3 i).1 1 ≤ 3 ∧ 3 < min (band 5 3 i).2 4)
      ∧ ¬(∃ i < 3, max (band 5 3 i).1 1 ≤ 4 ∧ 4 < min (band 5 3 i).2 4)
      ∧ ¬(∃ i < 3, max (band 5 3 i).1 1 ≤ 0 ∧ 0 < min (band 5 3 i).2 4) := by decide

theorem test_meets_LuminanceIsTheHighByteOfRed :
    (Sample.mk 7 1 2 3).r = (Sample.mk 7 4 5 6).r
      ∧ (Sample.mk 0x00FF 0 0 0).r.toNat ≤ (Sample.mk 0x0100 0 0 0).r.toNat := by decide

/-- Both sides of each boundary, and the sums under two clauses, where the clauses agree. -/
theorem test_meets_ReduceShiftsThenClamps :
    [255, 256, 65279, 65280, 65535, 65536].map (fun v => (BitVec.ofInt 32 v).toInt)
        = [255, 256, 65279, 65280, 65535, 65536]
      ∧ [255, 256, 65279, 65280, 65535, 65536].map (fun v => (reduceSum (BitVec.ofInt 32 v)).toNat)
        = [0, 1, 254, 255, 255, 255] := by decide

/-- Two images that differ in a corner and in alpha alone. -/
theorem test_meets_SharpenLanesAreIndependent :
    let S : Nat → Nat → Sample := fun _ _ => ⟨1, 2, 3, 4⟩
    let S' : Nat → Nat → Sample := fun x y => if x = 0 ∧ y = 0 then ⟨9, 9, 9, 9⟩ else ⟨1, 2, 3, 5⟩
    (∀ p ∈ [(1, 1), (1, 0), (1, 2), (0, 1), (2, 1)],
        (S p.1 p.2).r = (S' p.1 p.2).r ∧ (S p.1 p.2).g = (S' p.1 p.2).g ∧ (S p.1 p.2).b = (S' p.1 p.2).b)
      ∧ sharpCell S 1 1 = ⟨0, 0, 0, 255⟩ ∧ ∀ r < 3, ∀ c < 3, (S r c).r = (S c r).r := by decide

/-- S2 with V = 0x8000: a uniform image. -/
theorem test_meets_UniformCrossIsKept :
    let S : Nat → Nat → Sample := fun _ _ => ⟨0x8000, 0x8000, 0x8000, 0⟩
    S 1 1 = S 1 0 ∧ S 1 1 = S 1 2 ∧ S 1 1 = S 0 1 ∧ S 1 1 = S 2 1 ∧ sharpCell S 1 1 = ⟨128, 128, 128, 255⟩ := by decide

/-- S2, a border cell and an interior cell of a 5 x 5 image. -/
theorem test_meets_SharpenBorderIsZero :
    let S : Nat → Nat → Sample := fun _ _ => ⟨0x0100, 0x0100, 0x0100, 0⟩
    sharpOut S 5 5 4 2 = ⟨0, 0, 0, 0⟩ ∧ sharpOut S 5 5 3 3 = ⟨1, 1, 1, 255⟩ ∧ (4 : Nat) + 1 = 5 ∧ (3 : Nat) + 1 ≠ 5 := by
  decide

/-- ConfigurationWrites, SourceWindowReads, SourceWindowWrites, GrayWindowReads, RgbaWindowReads: idle and in range at
the last cell, out of range by one column and by one row, beyond the grid, and busy. -/
theorem test_meets_windows :
    let s := engine 2 3 3
    let within := fun s : State => s.pxX < s.width ∧ s.pxX < s.xmax ∧ s.pxY < s.height ∧ s.pxY < s.ymax
    within { s with pxX := 2, pxY := 2 } ∧ ¬within { s with pxX := 3, pxY := 2 } ∧ ¬within { s with pxX := 2, pxY := 3 }
      ∧ ¬within { engine 2 6 3 with pxX := 4 } ∧ s.src.wf = true ∧ s.status.busy = false
      ∧ (started .grayPar 2 3 3).status.busy = true ∧ (started .grayPar 2 3 3).src.wf = true := by decide

/-- The first and last index of each range. -/
theorem test_meets_ReservedAndForbiddenAccess :
    [12#5, 15#5, 25#5, 31#5, 1#5, 4#5, 9#5, 11#5, 16#5, 24#5].map
        (fun i => ((hostRead i (engine 2 3 3)).2.status.errAddr, (nextOf (hostWrite i 0 (engine 2 3 3))).status.errAddr))
      = [(true, true), (true, true), (true, true), (true, true), (false, true), (false, true), (false, true),
         (false, true), (false, true), (false, true)] := by decide

/-- An index that stores nothing to SRC and the two that do; (1, 0) and (0, 1) are cells other than the selected one,
which the write changes. -/
theorem test_meets_RegisterWriteFrame :
    let s := engine 2 3 3
    (2#5) ≠ 0 ∧ (2#5) ≠ 7 ∧ (2#5) ≠ 8 ∧ (7#5) ≠ 0 ∧ (8#5) ≠ 0 ∧ (31#5) ≠ 0 ∧ (1#16) ≠ s.pxX ∧ (1#16) ≠ s.pxY
      ∧ (nextOf (hostWrite 7 9 s)).srcAt 0 0 = ⟨9, 0, 0xFFFF, 0⟩
      ∧ (nextOf (hostWrite 7 9 s)).srcAt 1 0 = s.srcAt 1 0 := by decide

theorem test_meets_WaitPollsStatus :
    (withHost (started .grayPar 2 2 2) [.wait] []).program = .wait :: []
      ∧ (withHost (engine 2 2 2) [.wait] []).program = .wait :: [] := ⟨rfl, rfl⟩

theorem test_meets_IdleEngineStays : ∀ a, (engine 2 2 2).enabled a = false := by
  intro a
  cases a <;> rfl

end Sys2Proof.Tests
end

section
/-! SUPPORT. The partitioner's bands cover the image (R112, R145), and what one cursor step processes (R33). -/

namespace Sys2Proof.Machine

/-- R112: every row below `H`, and no other, lies in one of the `N` bands. -/
theorem exists_band_iff {H N : Nat} (hN : 1 ≤ N) (y : Nat) :
    (∃ i < N, (band H N i).1 ≤ y ∧ y < (band H N i).2) ↔ y < H := by
  constructor
  · rintro ⟨i, hi, -, hy⟩
    exact lt_of_lt_of_le hy (band_le hi).2.1
  · intro hy
    rcases Nat.lt_or_ge y ((N - 1) * (H / N)) with h | h
    · have hpos : 0 < H / N := Nat.pos_of_mul_pos_left (by omega : 0 < (N - 1) * (H / N))
      have hi : y / (H / N) < N - 1 := (Nat.div_lt_iff_lt_mul hpos).2 h
      refine ⟨y / (H / N), by omega, ?_⟩
      rw [band_of_lt (by omega)]
      exact ⟨Nat.div_mul_le_self .., by rw [Nat.add_mul, Nat.one_mul]; exact Nat.lt_div_mul_add hpos⟩
    · exact ⟨N - 1, by omega, by rw [band_last (by omega)]; exact ⟨h, hy⟩⟩

/-- The pixels a call of width `W` and height `H` processes: the image, or its interior (R122, R141). -/
def inTarget (x : Xform) (W H px py : Nat) : Prop :=
  match x with
  | .luminance => px < W ∧ py < H
  | .convolution => 1 ≤ px ∧ px + 1 < W ∧ 1 ≤ py ∧ py + 1 < H

/-- The loop bounds a row range gives: the pixels of the target in these rows (R35, R145). -/
theorem contains_loopBounds {x : Xform} {W H bs be px py : Nat} (hbe : be ≤ H) :
    (loopBounds x W H bs be).contains px py = true ↔ inTarget x W H px py ∧ bs ≤ py ∧ py < be := by
  rw [contains_iff]
  cases x <;> simp only [loopBounds, inTarget] <;> omega

/-- The bands' loop bounds cover the target. -/
theorem exists_band_contains_iff {H N : Nat} (hN : 1 ≤ N) (x : Xform) (W px py : Nat) :
    (∃ i < N, (loopBounds x W H (band H N i).1 (band H N i).2).contains px py = true) ↔ inTarget x W H px py := by
  have hrow : inTarget x W H px py → py < H := by cases x <;> simp only [inTarget] <;> omega
  constructor
  · rintro ⟨i, hi, h⟩
    exact ((contains_loopBounds (band_le hi).2.1).1 h).1
  · intro h
    obtain ⟨i, hi, hy⟩ := (exists_band_iff hN py).2 (hrow h)
    exact ⟨i, hi, (contains_loopBounds (band_le hi).2.1).2 ⟨h, hy⟩⟩

theorem isEmpty_iff (b : Bounds) : b.isEmpty = true ↔ b.xhi ≤ b.xlo ∨ b.yhi ≤ b.ylo := by simp [Bounds.isEmpty]

theorem processed_iff (b : Bounds) (w : Worker) (x y : Nat) :
    w.processed b x y = true ↔ b.contains x y = true
      ∧ (w.fin = true ∨ y < w.cy.toNat ∨ (y = w.cy.toNat ∧ x < w.cx.toNat)) := by
  simp [Worker.processed, or_assoc]

theorem boundsOf_le (s : State) (w : Worker) : (s.boundsOf w).xhi ≤ 65535 ∧ (s.boundsOf w).yhi ≤ 65535 := by
  have hW := s.wl.isLt
  have hb := w.bend.isLt
  unfold State.boundsOf loopBounds
  cases s.lxform <;> dsimp only <;> omega

@[simp] theorem boundsOf_advance (s : State) (b : Bounds) (w : Worker) :
    s.boundsOf (w.advance b) = s.boundsOf w := by simp [State.boundsOf]

/-- R33: a cursor within its bounds moves one column on, or to the start of the next row; the worker finishes when there
is no such row. -/
theorem advance_cases {b : Bounds} {w : Worker} (hx : b.xhi ≤ 65535) (hy : b.yhi ≤ 65535) (hf : w.fin = false)
    (hc : b.contains w.cx.toNat w.cy.toNat = true) :
    (w.cx.toNat + 1 < b.xhi ∧ (w.advance b).cx.toNat = w.cx.toNat + 1 ∧ (w.advance b).cy.toNat = w.cy.toNat
        ∧ (w.advance b).fin = false)
      ∨ (w.cx.toNat + 1 = b.xhi ∧ (w.advance b).cx.toNat = b.xlo ∧ (w.advance b).cy.toNat = w.cy.toNat + 1
        ∧ ((w.advance b).fin = true ↔ w.cy.toNat + 1 = b.yhi)) := by
  obtain ⟨hx0, hx1, hy0, hy1⟩ := (contains_iff ..).1 hc
  have hcy : (w.cy + 1).toNat = w.cy.toNat + 1 := by simp; omega
  rcases Nat.lt_or_ge (w.cx.toNat + 1) b.xhi with h | h
  · have hcx : (w.cx + 1).toNat = w.cx.toNat + 1 := by simp; omega
    left
    simpa [Worker.advance, h, hf, Nat.not_le.2 hy1] using hcx
  · have hlo : (BitVec.ofNat 16 b.xlo).toNat = b.xlo := by simp; omega
    right
    refine ⟨by omega, ?_⟩
    simp only [Worker.advance, if_neg (Nat.not_lt.2 h), hcy]
    split <;> simp only [hlo, hcy, hf, true_and] <;> simp <;> omega

/-- Until it finishes the cursor stays within the bounds (R36). -/
theorem advance_contains {b : Bounds} {w : Worker} (hx : b.xhi ≤ 65535) (hy : b.yhi ≤ 65535) (hf : w.fin = false)
    (hc : b.contains w.cx.toNat w.cy.toNat = true) (hf' : (w.advance b).fin = false) :
    b.contains (w.advance b).cx.toNat (w.advance b).cy.toNat = true := by
  have hc' := (contains_iff ..).1 hc
  rw [contains_iff]
  rcases advance_cases hx hy hf hc with ⟨h, hcx, hcy, -⟩ | ⟨h, hcx, hcy, hfin⟩
  · omega
  · have : w.cy.toNat + 1 ≠ b.yhi := fun he => by simp [hfin.2 he] at hf'
    omega

/-- R33: a step processes the pixel at the cursor and no other. -/
theorem advance_processed {b : Bounds} {w : Worker} (hx : b.xhi ≤ 65535) (hy : b.yhi ≤ 65535) (hf : w.fin = false)
    (hc : b.contains w.cx.toNat w.cy.toNat = true) (x y : Nat) :
    (w.advance b).processed b x y = true ↔ w.processed b x y = true ∨ (x = w.cx.toNat ∧ y = w.cy.toNat) := by
  have hc' := (contains_iff ..).1 hc
  simp only [processed_iff, contains_iff, hf, Bool.false_eq_true, false_or]
  rcases advance_cases hx hy hf hc with ⟨h, hcx, hcy, hfin⟩ | ⟨h, hcx, hcy, hfin⟩
  · simp only [hcx, hcy, hfin, Bool.false_eq_true, false_or]; omega
  · simp only [hcx, hcy, hfin]; omega

end Sys2Proof.Machine
end

section
/-! SUPPORT. The workers of a call: which cells they have processed, and what a WORKER step and START make of them. -/

namespace Sys2Proof.Machine

theorem worker_of_getElem? {s : State} {i : Nat} {w : Worker} (h : s.workers[i]? = some w) : s.worker i = w := by
  simp [State.worker, List.getD, h]

/-- The worker count of a call is between 1 and NWORK (R34). -/
theorem workerCount_le {s : State} (hc : s.ControlInv) (e : Executor) :
    1 ≤ (s.workerCount e).toNat ∧ (s.workerCount e).toNat ≤ s.workers.length := by
  obtain ⟨hn, -, -, hlen, -⟩ := hc
  cases e <;> simp only [State.workerCount, hlen]
  · exact ⟨le_rfl, hn⟩
  · exact ⟨hn, le_rfl⟩

/-- A call has at least one worker and never more than the engine (R34). -/
theorem neff_le_length {s : State} (hc : s.ControlInv) (hl : s.LatchInv) :
    1 ≤ s.neff.toNat ∧ s.neff.toNat ≤ s.workers.length := by
  obtain ⟨-, -, -, -, -, -, hneff⟩ := hl
  exact hneff ▸ workerCount_le hc s.lexec

theorem cellProcessed_iff {s : State} (h : s.neff.toNat ≤ s.workers.length) (x y : Nat) :
    s.cellProcessed x y = true
      ↔ ∃ i < s.neff.toNat, (s.worker i).processed (s.boundsOf (s.worker i)) x y = true := by
  simp only [State.cellProcessed, State.callWorkers, List.any_eq_true, List.mem_take_iff_getElem]
  constructor
  · rintro ⟨w, ⟨i, hi, rfl⟩, hw⟩
    rw [← worker_of_getElem? (List.getElem?_eq_getElem (by omega))] at hw
    exact ⟨i, by omega, hw⟩
  · rintro ⟨i, hi, hw⟩
    have hlen : i < s.workers.length := by omega
    exact ⟨s.worker i, ⟨i, by omega, (worker_of_getElem? (List.getElem?_eq_getElem hlen)).symm⟩, hw⟩

/-- During a call a worker's loop bounds are those of its band. -/
theorem boundsOf_worker {s : State} (hw : s.WorkersInv) {i : Nat} (hi : i < s.neff.toNat) :
    s.boundsOf (s.worker i) = loopBounds s.lxform s.wl.toNat s.hl.toNat (band s.hl.toNat s.neff.toNat i).1
      (band s.hl.toNat s.neff.toNat i).2 := by
  obtain ⟨hband, -⟩ := hw
  obtain ⟨hs, he, -⟩ := hband i hi
  rw [State.boundsOf, hs, he]

/-- When every worker has finished, the cells processed are the target. -/
theorem cellProcessed_of_joinReady {s : State} (hi : s.Inv) (hj : s.joinReady = true) (x y : Nat) :
    s.cellProcessed x y = true ↔ inTarget s.lxform s.wl.toNat s.hl.toNat x y := by
  obtain ⟨hb, hfin⟩ : s.status.busy = true ∧ ∀ w ∈ s.workers, w.fin = true := by simpa [State.joinReady] using hj
  obtain ⟨hc, -, hcall⟩ := hi
  obtain ⟨hl, hw, -⟩ := hcall hb
  obtain ⟨hpos, hle⟩ := neff_le_length hc hl
  rw [cellProcessed_iff hle, ← exists_band_contains_iff hpos]
  refine exists_congr fun i => and_congr_right fun hlt => ?_
  have hf : (s.worker i).fin = true := by
    have hlen : i < s.workers.length := by omega
    rw [worker_of_getElem? (List.getElem?_eq_getElem hlen)]
    exact hfin _ (List.getElem_mem hlen)
  simp [processed_iff, hf, boundsOf_worker hw hlt]

/-- R122: when every worker has finished, GRAY is GrayOut. -/
theorem grayAt_of_joinReady {s : State} (hi : s.Inv) (hj : s.joinReady = true) (hx : s.lxform = .luminance) {x y : Nat}
    (hxm : x < s.xmax.toNat) (hym : y < s.ymax.toNat) :
    s.grayAt x y = grayOut s.srcAt s.wl.toNat s.hl.toNat x y := by
  have hdone := cellProcessed_of_joinReady hi hj x y
  obtain ⟨-, -, hcall⟩ := hi
  obtain ⟨-, -, ht, -⟩ := hcall (Bool.and_eq_true_iff.1 hj).1
  obtain ⟨-, hcell⟩ := ht hx
  simp only [hcell x hxm y hym, hdone, hx, inTarget, grayOut]

/-- R141: when every worker has finished, RGBA is SharpOut. -/
theorem rgbaAt_of_joinReady {s : State} (hi : s.Inv) (hj : s.joinReady = true) (hx : s.lxform = .convolution) {x y : Nat}
    (hxm : x < s.xmax.toNat) (hym : y < s.ymax.toNat) :
    s.rgbaAt x y = sharpOut s.srcAt s.wl.toNat s.hl.toNat x y := by
  have hdone := cellProcessed_of_joinReady hi hj x y
  obtain ⟨-, -, hcall⟩ := hi
  obtain ⟨-, -, -, ht⟩ := hcall (Bool.and_eq_true_iff.1 hj).1
  obtain ⟨-, hcell⟩ := ht hx
  simp only [hcell x hxm y hym, hdone, hx, inTarget, sharpOut]

/-! START -/

/-- R163: the registers START loads hold the numbers they are loaded from. -/
theorem startedWorker_toNat {W H N i : Nat} (hH : H ≤ 65535) (hi : i < N) (x : Xform) {b : Bounds}
    (hb : b = loopBounds x W H (band H N i).1 (band H N i).2) :
    (startedWorker x W H N i).bstart.toNat = (band H N i).1 ∧ (startedWorker x W H N i).bend.toNat = (band H N i).2
      ∧ (startedWorker x W H N i).cx.toNat = b.xlo ∧ (startedWorker x W H N i).cy.toNat = b.ylo
      ∧ (startedWorker x W H N i).fin = b.isEmpty := by
  obtain ⟨h1, h2, -⟩ := band_le (H := H) hi
  have hlo : b.xlo ≤ 1 ∧ b.ylo ≤ 65535 := by subst hb; cases x <;> simp only [loopBounds] <;> omega
  subst hb
  simp only [startedWorker, BitVec.toNat_ofNat, and_true]
  omega

theorem start_worker (s : State) (x : Xform) (e : Executor) {i : Nat} (hi : i < s.workers.length) :
    (s.start x e).worker i
      = if i < (s.workerCount e).toNat then startedWorker x s.width.toNat s.height.toNat (s.workerCount e).toNat i
        else { s.worker i with fin := true } := by
  rw [worker_of_getElem? (startWorkers_get _ _ _ _ _ hi), worker_of_getElem? (List.getElem?_eq_getElem hi)]

/-- Every worker of the call starts with its band, and its cursor is the first pixel of its bounds, or it has none. -/
theorem start_workersInv {s : State} (hc : s.ControlInv) (x : Xform) (e : Executor) : (s.start x e).WorkersInv := by
  have hH : s.height.toNat ≤ 65535 := by have := s.height.isLt; omega
  obtain ⟨-, hle⟩ := workerCount_le hc e
  refine ⟨fun i hi => ?_, fun i hi hn => ?_⟩
  · have hi' : i < (s.workerCount e).toNat := hi
    obtain ⟨hs, he, hx, hy, hf⟩ := startedWorker_toNat (W := s.width.toNat) hH hi' x rfl
    rw [start_worker s x e (by omega), if_pos hi']
    refine ⟨hs, he, fun hfin => ?_⟩
    have hb := mt (isEmpty_iff _).2 (Bool.eq_false_iff.1 (hf ▸ hfin))
    rw [State.boundsOf, hs, he, hx, hy, contains_iff]
    simp only [State.start_lxform, State.start_wl, State.start_hl]
    omega
  · have hi' : i < s.nwork.toNat := hi
    have hn' : (s.workerCount e).toNat ≤ i := hn
    obtain ⟨-, -, -, hlen, -⟩ := hc
    rw [start_worker s x e (by omega), if_neg (by omega)]

/-- No cell is processed when a call starts. -/
theorem start_cellProcessed {s : State} (hc : s.ControlInv) (x : Xform) (e : Executor) (px py : Nat) :
    (s.start x e).cellProcessed px py = false := by
  have hH : s.height.toNat ≤ 65535 := by have := s.height.isLt; omega
  have hle : (s.workerCount e).toNat ≤ s.workers.length := (workerCount_le hc e).2
  rw [← Bool.not_eq_true, cellProcessed_iff (by simpa using hle)]
  rintro ⟨i, hi, hp⟩
  have hi' : i < (s.workerCount e).toNat := hi
  have hb := boundsOf_worker (start_workersInv hc x e) hi
  obtain ⟨-, -, hx, hy, hf⟩ := startedWorker_toNat (W := s.width.toNat) hH hi' x hb
  have hwk := start_worker s x e (i := i) (by omega)
  rw [if_pos hi'] at hwk
  simp only [processed_iff, contains_iff, hwk, hx, hy, hf, isEmpty_iff] at hp
  omega

/-- R163: an accepted START meets the invariant. -/
theorem start_keeps_inv {s : State} (hi : s.Inv) (hd : s.dimsLegal = true) (x : Xform) (e : Executor) :
    (s.start x e).Inv := by
  obtain ⟨hc, hg, -⟩ := hi
  obtain ⟨hw1, hw2, hh1, hh2⟩ := (dimsLegal_iff s).1 hd
  have hcount : (s.start x e).neff = (s.start x e).workerCount e := by cases e <;> rfl
  have hproc := start_cellProcessed hc x e
  refine ⟨?_, ?_, fun _ => ⟨⟨rfl, rfl, hw1, hw2, hh1, hh2, hcount⟩, start_workersInv hc x e, ?_⟩⟩
  · obtain ⟨hn, hx, hy, hlen, -⟩ := hc
    exact ⟨hn, hx, hy, by simpa using hlen, by simp⟩
  · obtain ⟨h1, h2, h3, h4, h5, h6, h7, h8, h9⟩ := hg
    cases x
    · exact ⟨h1, rfl, h3, h4, by simp [Memory.Within, Memory.filled], h6, h7, .inr rfl, h9⟩
    · exact ⟨h1, h2, rfl, h4, h5, by simp [Memory.Within, Memory.filled], h7, h8, .inr rfl⟩
  · cases x
    · exact ⟨fun _ => ⟨rfl, fun px _ py _ => by rw [hproc]; rfl⟩, by simp⟩
    · exact ⟨by simp, fun _ => ⟨rfl, fun px _ py _ => by rw [hproc]; rfl⟩⟩

/-! A WORKER step -/

@[simp] theorem boundsOf_advanceWorker (s : State) (i : Nat) (w w' : Worker) :
    (s.advanceWorker i w).boundsOf w' = s.boundsOf w' := rfl

theorem advanceWorker_worker {s : State} {i : Nat} {w : Worker} (hw : s.workers[i]? = some w) (j : Nat) :
    (s.advanceWorker i w).worker j = if j = i then w.advance (s.boundsOf w) else s.worker j := by
  obtain ⟨hi, -⟩ := List.getElem?_eq_some_iff.1 hw
  by_cases hj : j = i
  · subst hj; simp [State.worker, List.getD, hi]
  · simp [State.worker, List.getD, hj, List.getElem?_set_ne (Ne.symm hj)]

/-- During a call an unfinished worker is one of the call's, and its cursor is within its bounds (R44 d). -/
theorem unfinished_worker {s : State} (hc : s.ControlInv) (hw : s.WorkersInv) {i : Nat} {w : Worker}
    (hi : s.workers[i]? = some w) (hf : w.fin = false) :
    i < s.neff.toNat ∧ (s.boundsOf w).contains w.cx.toNat w.cy.toNat = true := by
  obtain ⟨-, -, -, hlen, -⟩ := hc
  obtain ⟨hband, hidle⟩ := hw
  obtain ⟨hlt, -⟩ := List.getElem?_eq_some_iff.1 hi
  have hwk := worker_of_getElem? hi
  have hn : i < s.neff.toNat := by
    by_contra hge
    have := hidle i (by omega) (by omega)
    simp [hwk, hf] at this
  obtain ⟨-, -, hcursor⟩ := hband i hn
  exact ⟨hn, hwk ▸ hcursor (by rw [hwk, hf])⟩

/-- A WORKER step processes the cell at the worker's cursor and no other. -/
theorem advanceWorker_cellProcessed {s : State} (hc : s.ControlInv) (hl : s.LatchInv) (hw : s.WorkersInv) {i : Nat}
    {w : Worker} (hi : s.workers[i]? = some w) (hf : w.fin = false) (x y : Nat) :
    (s.advanceWorker i w).cellProcessed x y = true
      ↔ s.cellProcessed x y = true ∨ (x = w.cx.toNat ∧ y = w.cy.toNat) := by
  obtain ⟨-, hle⟩ := neff_le_length hc hl
  obtain ⟨hn, hcont⟩ := unfinished_worker hc hw hi hf
  obtain ⟨hxhi, hyhi⟩ := boundsOf_le s w
  have hwk := worker_of_getElem? hi
  rw [cellProcessed_iff hle, cellProcessed_iff (by simpa using hle)]
  have key : ∀ j, ((s.advanceWorker i w).worker j).processed
        ((s.advanceWorker i w).boundsOf ((s.advanceWorker i w).worker j)) x y = true
      ↔ (s.worker j).processed (s.boundsOf (s.worker j)) x y = true
        ∨ (j = i ∧ x = w.cx.toNat ∧ y = w.cy.toNat) := fun j => by
    rw [advanceWorker_worker hi, boundsOf_advanceWorker]
    by_cases hj : j = i
    · rw [if_pos hj, boundsOf_advance, advance_processed hxhi hyhi hf hcont, hj, hwk]
      simp
    · simp [hj]
  simp only [key, State.advanceWorker_neff, and_or_left, exists_or]
  refine or_congr_right ⟨fun ⟨_, _, _, h⟩ => h, fun h => ⟨i, hn, rfl, h⟩⟩

end Sys2Proof.Machine
end

section
/-! SUPPORT. Every step keeps the invariant of R44, agent by agent. -/

namespace Sys2Proof.Machine

theorem Memory.within_set {α : Type} [DecidableEq α] {m : Memory α} {xmax ymax : Half} (h : m.Within xmax ymax)
    {x y : Nat} (hx : x < xmax.toNat) (hy : y < ymax.toNat) (v : α) : (m.set (cellKey x y) v).Within xmax ymax := by
  intro e he
  have hx' : x < 65536 := by have := xmax.isLt; omega
  rcases Memory.mem_set he with hk | he
  · rw [hk, cellKey_mod hx', cellKey_div hx']
    exact ⟨hx, hy⟩
  · exact h e he

theorem grayAt_writeGray {s : State} (h : s.gray.wf = true) {x x' : Nat} (hx : x < 65536) (hx' : x' < 65536)
    (y y' : Nat) (g : Byte) :
    (s.writeGray x y g).grayAt x' y' = if x' = x ∧ y' = y then g else s.grayAt x' y' := by
  simp only [State.grayAt, State.writeGray_gray, State.writeGray_epoch, Memory.get_set h, cellKey_inj hx' hx]

theorem rgbaAt_writeRgba {s : State} (h : s.rgba.wf = true) {x x' : Nat} (hx : x < 65536) (hx' : x' < 65536)
    (y y' : Nat) (c : Pixel) :
    (s.writeRgba x y c).rgbaAt x' y' = if x' = x ∧ y' = y then c else s.rgbaAt x' y' := by
  simp only [State.rgbaAt, State.writeRgba_rgba, State.writeRgba_epoch, Memory.get_set h, cellKey_inj hx' hx]

/-- A grid that holds `f` at the processed cells and `z` elsewhere still does when the cell newly processed gets its
`f`. -/
theorem target_of_write {α : Type} {p p' here : Prop} [Decidable p] [Decidable p'] [Decidable here] {new old f z : α}
    {v : α} (hp : p' ↔ p ∨ here) (hnew : new = if here then v else old) (hv : here → v = f)
    (hold : old = if p then f else z) : new = if p' then f else z := by
  by_cases hh : here <;> simp_all

theorem advanceWorker_controlInv {s : State} (hc : s.ControlInv) (i : Nat) (w : Worker) :
    (s.advanceWorker i w).ControlInv := by simpa [State.ControlInv] using hc

theorem advanceWorker_workersInv {s : State} (hc : s.ControlInv) (hw : s.WorkersInv) {i : Nat} {w : Worker}
    (hi : s.workers[i]? = some w) (hf : w.fin = false) : (s.advanceWorker i w).WorkersInv := by
  obtain ⟨hn, hcont⟩ := unfinished_worker hc hw hi hf
  obtain ⟨hxhi, hyhi⟩ := boundsOf_le s w
  have hwk := worker_of_getElem? hi
  obtain ⟨hband, hidle⟩ := hw
  refine ⟨fun j hj => ?_, fun j hj hge => ?_⟩
  · obtain ⟨hs, he, hin⟩ := hband j hj
    rw [advanceWorker_worker hi, boundsOf_advanceWorker]
    by_cases hji : j = i
    · rw [hji, hwk] at hs he
      rw [if_pos hji, boundsOf_advance, advance_bstart, advance_bend, hji]
      exact ⟨hs, he, advance_contains hxhi hyhi hf hcont⟩
    · rw [if_neg hji]
      exact ⟨hs, he, hin⟩
  · have hji : j ≠ i := by rintro rfl; exact absurd hn (Nat.not_lt.2 hge)
    rw [advanceWorker_worker hi, if_neg hji]
    exact hidle j hj hge

theorem cellExists_iff (s : State) (x y : Nat) : s.cellExists x y = true ↔ x < s.xmax.toNat ∧ y < s.ymax.toNat := by
  simp [State.cellExists]

theorem neighboursExist_iff (s : State) (x y : Nat) : s.neighboursExist x y = true
    ↔ 1 ≤ x ∧ 1 ≤ y ∧ x + 1 < s.xmax.toNat ∧ y + 1 < s.ymax.toNat := by
  simp only [State.neighboursExist, Bool.and_eq_true, decide_eq_true_eq, cellExists_iff]
  omega

/-- R123: the WORKER step of a GRAY command keeps the invariant. -/
theorem grayWorkerStep_keeps_inv {s : State} (hi : s.Inv) (hb : s.status.busy = true) (hx : s.lxform = .luminance)
    {i : Nat} {w : Worker} (hw : s.workers[i]? = some w) (hf : w.fin = false)
    (he : s.cellExists w.cx.toNat w.cy.toNat = true) :
    ((s.writeGray w.cx.toNat w.cy.toNat (luminance (s.srcAt w.cx.toNat w.cy.toNat))).advanceWorker i w).Inv := by
  obtain ⟨hc, ⟨h1, h2, h3, h4, h5, h6, h7, h8, h9⟩, hcall⟩ := hi
  obtain ⟨hl, hws, ht⟩ := hcall hb
  obtain ⟨hfill, hgray⟩ := ht.1 hx
  obtain ⟨hex, hey⟩ := (cellExists_iff ..).1 he
  set s' := s.writeGray w.cx.toNat w.cy.toNat (luminance (s.srcAt w.cx.toNat w.cy.toNat))
  refine ⟨advanceWorker_controlInv (s := s') hc i w,
    ⟨h1, Memory.wf_set h2 .., h3, h4, Memory.within_set h5 hex hey _, h6, h7, h8, h9⟩,
    fun _ => ⟨hl, advanceWorker_workersInv (s := s') hc hws hw hf, fun _ => ⟨hfill, fun px hpx py hpy => ?_⟩, ?_⟩⟩
  · refine target_of_write (advanceWorker_cellProcessed (s := s') hc hl hws hw hf px py)
      (grayAt_writeGray h2 (by omega) (by omega) _ _ _) ?_ (hgray px hpx py hpy)
    rintro ⟨rfl, rfl⟩; rfl
  · intro h
    cases hx.symm.trans h

/-- R142: the WORKER step of a SHARP command keeps the invariant. -/
theorem sharpWorkerStep_keeps_inv {s : State} (hi : s.Inv) (hb : s.status.busy = true) (hx : s.lxform = .convolution)
    {i : Nat} {w : Worker} (hw : s.workers[i]? = some w) (hf : w.fin = false)
    (he : s.neighboursExist w.cx.toNat w.cy.toNat = true) :
    ((s.writeRgba w.cx.toNat w.cy.toNat (sharpCell s.srcAt w.cx.toNat w.cy.toNat)).advanceWorker i w).Inv := by
  obtain ⟨hc, ⟨h1, h2, h3, h4, h5, h6, h7, h8, h9⟩, hcall⟩ := hi
  obtain ⟨hl, hws, ht⟩ := hcall hb
  obtain ⟨hfill, hrgba⟩ := ht.2 hx
  obtain ⟨-, -, hex, hey⟩ := (neighboursExist_iff ..).1 he
  set s' := s.writeRgba w.cx.toNat w.cy.toNat (sharpCell s.srcAt w.cx.toNat w.cy.toNat)
  refine ⟨advanceWorker_controlInv (s := s') hc i w,
    ⟨h1, h2, Memory.wf_set h3 .., h4, h5, Memory.within_set h6 (by omega) (by omega) _, h7, h8, h9⟩,
    fun _ => ⟨hl, advanceWorker_workersInv (s := s') hc hws hw hf, ?_, fun _ => ⟨hfill, fun px hpx py hpy => ?_⟩⟩⟩
  · intro h
    cases hx.symm.trans h
  · refine target_of_write (advanceWorker_cellProcessed (s := s') hc hl hws hw hf px py)
      (rgbaAt_writeRgba h3 (by omega) (by omega) _ _ _) ?_ (hrgba px hpx py hpy)
    rintro ⟨rfl, rfl⟩; rfl

/-- R44 holds after any operation of the host. -/
theorem hostEffect_keeps_inv {s t : State} (hi : s.Inv) (h : HostEffect s t) : t.Inv := by
  obtain ⟨hc, hg, hcall⟩ := hi
  cases h with
  | quiet px py ops answers => exact ⟨hc, hg, hcall⟩
  | flagged e ops answers n =>
    exact ⟨by simpa [State.ControlInv] using hc, hg, fun hb => hcall (by simpa using hb)⟩
  | config hb w h ops => exact ⟨hc, hg, fun hb' => absurd hb' (by simp [hb])⟩
  | source hb hr p ops =>
    obtain ⟨h1, h2, h3, h4, h5, h6, h7, h8, h9⟩ := hg
    obtain ⟨-, hx, -, hy⟩ := (inRange_iff s).1 hr
    exact ⟨hc, ⟨Memory.wf_set h1 .., h2, h3, Memory.within_set h4 hx hy p, h5, h6, h7, h8, h9⟩,
      fun hb' => absurd hb' (by simp [hb])⟩
  | started hb hd i rest hp =>
    exact start_keeps_inv (s := { s with program := rest }) ⟨hc, hg, hcall⟩ hd i.xform i.executor

/-- R44 holds after a WORKER step. -/
theorem workerStep_keeps_inv {s t : State} (hi : s.Inv) {i : Nat} (hr : s.workerReady i = true)
    (h : workerStep i s = .next t) : t.Inv := by
  have hb : s.status.busy = true := (Bool.and_eq_true_iff.1 hr).1
  obtain ⟨w, hw, hf, ⟨hx, he, rfl⟩ | ⟨hx, he, rfl⟩⟩ := workerStep_cases hr h
  · exact grayWorkerStep_keeps_inv hi hb hx hw hf he
  · exact sharpWorkerStep_keeps_inv hi hb hx hw hf he

/-- R44 holds after a JOIN. -/
theorem join_keeps_inv {s : State} (hi : s.Inv) : s.join.Inv := by
  obtain ⟨⟨hn, hx, hy, hlen, -⟩, hg, -⟩ := hi
  exact ⟨⟨hn, hx, hy, hlen, by simp⟩, hg, by simp⟩

/-- R44 holds after a reset. -/
theorem resetEngine_keeps_inv {s : State} (hc : s.ControlInv) : s.resetEngine.Inv := by
  obtain ⟨hn, hx, hy, -, -⟩ := hc
  refine ⟨⟨hn, hx, hy, by simp [State.resetEngine, State.atReset], fun h => nomatch h.1⟩, ⟨rfl, rfl, rfl, ?_⟩, nofun⟩
  simp [State.resetEngine, State.atReset, Memory.Within, Memory.unwritten]

/-- R44: every step keeps the invariant. -/
theorem step_keeps_inv {s t : State} (hi : s.Inv) (h : step s = .next t) : t.Inv := by
  rcases step_by_agent h with ⟨-, rfl⟩ | ⟨order, n, u, hu, hagent⟩
  · exact hi
  · have hiu : u.Inv := hu ▸ hi
    rcases hagent with ⟨-, -, he⟩ | ⟨-, -, rfl⟩ | ⟨i, -, hr, hw⟩ | ⟨-, rfl⟩
    · exact hostEffect_keeps_inv hiu he
    · exact join_keeps_inv hiu
    · exact workerStep_keeps_inv hiu (hu ▸ hr) hw
    · exact resetEngine_keeps_inv hiu.1

end Sys2Proof.Machine
end

section
/-! SUPPORT. The steps between START and JOIN: what they leave, and the target grid when the call ends (R71, R209). -/

namespace Sys2Proof.Machine

/-- The call that runs in `s` runs in `t` with the same inputs (R71), and the other destination grid is as it was
(R79). -/
structure SameCall (s t : State) : Prop where
  busy : t.status.busy = true
  src : t.src = s.src
  epoch : t.epoch = s.epoch
  width : t.width = s.width
  height : t.height = s.height
  nwork : t.nwork = s.nwork
  xmax : t.xmax = s.xmax
  ymax : t.ymax = s.ymax
  lxform : t.lxform = s.lxform
  lexec : t.lexec = s.lexec
  wl : t.wl = s.wl
  hl : t.hl = s.hl
  neff : t.neff = s.neff
  gray : s.lxform = .convolution → t.gray = s.gray
  rgba : s.lxform = .luminance → t.rgba = s.rgba

theorem SameCall.refl {s : State} (hb : s.status.busy = true) : SameCall s s := by
  constructor <;> simp [hb]

/-- The choice of the agent leaves a call alone. -/
theorem SameCall.rescheduled {s : State} (hb : s.status.busy = true) (order : List Agent) (n : Nat) :
    SameCall s { s with schedule := order, draws := n } := by
  constructor <;> simp [hb]

theorem SameCall.trans {s t u : State} (h : SameCall s t) (h' : SameCall t u) : SameCall s u :=
  { busy := h'.busy, src := h'.src.trans h.src, epoch := h'.epoch.trans h.epoch, width := h'.width.trans h.width,
    height := h'.height.trans h.height, nwork := h'.nwork.trans h.nwork, xmax := h'.xmax.trans h.xmax,
    ymax := h'.ymax.trans h.ymax, lxform := h'.lxform.trans h.lxform, lexec := h'.lexec.trans h.lexec,
    wl := h'.wl.trans h.wl, hl := h'.hl.trans h.hl, neff := h'.neff.trans h.neff,
    gray := fun hx => (h'.gray (h.lxform.trans hx)).trans (h.gray hx),
    rgba := fun hx => (h'.rgba (h.lxform.trans hx)).trans (h.rgba hx) }

theorem SameCall.srcAt {s t : State} (h : SameCall s t) : t.srcAt = s.srcAt := by
  funext x y; simp [State.srcAt, h.src, h.epoch]

/-- The host leaves a running call alone (R71). -/
theorem hostEffect_sameCall {s t : State} (hb : s.status.busy = true) (h : HostEffect s t) : SameCall s t := by
  cases h with
  | quiet px py ops answers => constructor <;> simp [hb]
  | flagged e ops answers n => constructor <;> simp [hb]
  | config hb' => simp [hb] at hb'
  | source hb' => simp [hb] at hb'
  | started hb' => simp [hb] at hb'

theorem workerStep_sameCall {s t : State} {i : Nat} (hr : s.workerReady i = true) (h : workerStep i s = .next t) :
    SameCall s t := by
  have hb : s.status.busy = true := (Bool.and_eq_true_iff.1 hr).1
  obtain ⟨w, -, -, ⟨hx, -, rfl⟩ | ⟨hx, -, rfl⟩⟩ := workerStep_cases hr h
  · constructor <;> simp [hb, hx]
  · constructor <;> simp [hb, hx]

/-- A step from a state in which a call runs continues the call, or is its JOIN, or is a reset, after which DONE = 0. -/
theorem busy_step_cases {s t : State} (hb : s.status.busy = true) (h : step s = .next t) :
    SameCall s t
      ∨ (∃ order n, ∃ v : State, v = { s with schedule := order, draws := n } ∧ v.joinReady = true ∧ t = v.join)
      ∨ (t.status.busy = false ∧ t.status.done = false) := by
  rcases step_by_agent h with ⟨-, rfl⟩ | ⟨order, n, u, hu, hagent⟩
  · exact .inl (.refl hb)
  · have hub : u.status.busy = true := hu ▸ hb
    have hsu : SameCall s u := hu ▸ .rescheduled hb order n
    rcases hagent with ⟨-, -, he⟩ | ⟨-, hj, rfl⟩ | ⟨i, -, hr, hw⟩ | ⟨-, rfl⟩
    · exact .inl (hsu.trans (hostEffect_sameCall hub he))
    · exact .inr (.inl ⟨order, n, u, hu, hu ▸ hj, rfl⟩)
    · exact .inl (hsu.trans (workerStep_sameCall (hu ▸ hr) hw))
    · exact .inr (.inr ⟨rfl, rfl⟩)

theorem callRun_of_idle {n : Nat} {s u : State} (hb : s.status.busy = false) (h : callRun n s u) : u = s := by
  cases n with
  | zero => exact h.symm
  | succ n => simp [callRun, hb] at h

/-- A call that ends does so by JOIN, from a state of the same call that meets the invariant. -/
theorem callEndsAt_join {t u : State} (hi : t.Inv) (hb : t.status.busy = true) (h : CallEndsAt t u) :
    ∃ v : State, v.Inv ∧ SameCall t v ∧ v.joinReady = true ∧ u = v.join := by
  obtain ⟨n, hrun, hub, hud⟩ := h
  induction n generalizing t with
  | zero => obtain rfl : t = u := hrun; simp [hb] at hub
  | succ n ih =>
    obtain ⟨-, m, hm, hrun⟩ := hrun
    rcases busy_step_cases hb hm with hs | ⟨order, k, v, hv, hj, rfl⟩ | ⟨hmb, hmd⟩
    · obtain ⟨v, hvi, hsv, hj, hu⟩ := ih (step_keeps_inv hi hm) hs.busy hrun
      exact ⟨v, hvi, hs.trans hsv, hj, hu⟩
    · exact ⟨v, hv ▸ hi, hv ▸ .rescheduled hb order k, hj, callRun_of_idle rfl hrun⟩
    · simp [callRun_of_idle hmb hrun, hmd] at hud

/-- A command that leaves the engine running was started. -/
theorem exec_started {i : Instr} {s t : State} (hb : s.status.busy = false) (h : exec i s = .next t)
    (ht : t.status.busy = true) : s.dimsLegal = true ∧ t = s.start i.xform i.executor := by
  obtain rfl : s.offer i.xform i.executor = t := by simpa [exec_eq] using h
  rcases offer_cases s i.xform i.executor with ⟨hb', -⟩ | ⟨-, -, ho⟩ | ⟨-, hd, ho⟩
  · simp [hb] at hb'
  · simp [ho, hb] at ht
  · exact ⟨hd, ho⟩

section
variable {i : Instr} {s t u : State} (hi : s.Inv) (hb : s.status.busy = false) (he : exec i s = .next t)
  (ht : t.status.busy = true) (hu : CallEndsAt t u)
include hi hb he ht hu

/-- A whole call ends by JOIN, in a state of the call it started. -/
theorem call_join :
    ∃ v : State, v.Inv ∧ SameCall (s.start i.xform i.executor) v ∧ v.joinReady = true ∧ u = v.join := by
  obtain ⟨hd, rfl⟩ := exec_started hb he ht
  exact callEndsAt_join (start_keeps_inv hi hd ..) ht hu

/-- R122: a GRAY call ends with GRAY = GrayOut. -/
theorem call_grayAt (hx : i.xform = .luminance) {x y : Nat} (hxm : x < s.xmax.toNat) (hym : y < s.ymax.toNat) :
    u.grayAt x y = grayOut s.srcAt s.width.toNat s.height.toNat x y := by
  obtain ⟨v, hv, hsame, hj, rfl⟩ := call_join hi hb he ht hu
  have hout := grayAt_of_joinReady hv hj (hsame.lxform.trans hx) (hsame.xmax ▸ hxm) (hsame.ymax ▸ hym)
  rw [hsame.srcAt, hsame.wl, hsame.hl] at hout
  exact hout

/-- R141: a SHARP call ends with RGBA = SharpOut. -/
theorem call_rgbaAt (hx : i.xform = .convolution) {x y : Nat} (hxm : x < s.xmax.toNat) (hym : y < s.ymax.toNat) :
    u.rgbaAt x y = sharpOut s.srcAt s.width.toNat s.height.toNat x y := by
  obtain ⟨v, hv, hsame, hj, rfl⟩ := call_join hi hb he ht hu
  have hout := rgbaAt_of_joinReady hv hj (hsame.lxform.trans hx) (hsame.xmax ▸ hxm) (hsame.ymax ▸ hym)
  rw [hsame.srcAt, hsame.wl, hsame.hl] at hout
  exact hout

end

end Sys2Proof.Machine
end

section
/-! CERTIFICATE. R13: the result depends on the image and the transform alone. -/

namespace Sys2Proof.Machine

/-- GrayOut reads the image window alone. -/
theorem grayOut_congr {S S' : Nat → Nat → Sample} {W H : Nat} (h : ∀ x < W, ∀ y < H, S x y = S' x y) (x y : Nat) :
    grayOut S W H x y = grayOut S' W H x y :=
  if_ctx_congr Iff.rfl (fun hin => by rw [h x hin.1 y hin.2]) fun _ => rfl

/-- A convolution reads the nine entries of its neighbourhood alone. -/
theorem convolve_congr (K : Nat → Nat → Byte) {nb nb' : Nat → Nat → Sample} (h : ∀ r < 3, ∀ c < 3, nb r c = nb' r c) :
    convolve K nb = convolve K nb' := by
  simp [convolve, convolveLane, laneSum, matrixEntries, h]

/-- SharpOut reads the image window alone. -/
theorem sharpOut_congr {S S' : Nat → Nat → Sample} {W H : Nat} (h : ∀ x < W, ∀ y < H, S x y = S' x y) (x y : Nat) :
    sharpOut S W H x y = sharpOut S' W H x y := by
  refine if_ctx_congr Iff.rfl (fun hin => ?_) fun _ => rfl
  have hnb : ∀ r < 3, ∀ c < 3, neighbourhood S x y r c = neighbourhood S' x y r c :=
    fun r hr c hc => h _ (by omega) _ (by omega)
  rw [sharpCell, sharpCell, convolve_congr kernel hnb]

/-- Settles O18: each call ends with GrayOut or SharpOut of its own image, and these read the window alone. -/
theorem executorsAndWorkerCountsAgree : Obligations.ExecutorsAndWorkerCountsAgree := by
  intro i j s s' t t' u u' hij hs hs' hw hh hxm hym hsrc hb hb' he he' ht ht' hu hu' x hx y hy
  have hx' : x < s'.xmax.toNat := hxm ▸ hx
  have hy' : y < s'.ymax.toNat := hym ▸ hy
  cases hi : i.xform with
  | luminance =>
    show u.grayAt x y = u'.grayAt x y
    rw [call_grayAt hs hb he ht hu hi hx hy, call_grayAt hs' hb' he' ht' hu' (hij ▸ hi) hx' hy', ← hw, ← hh]
    exact grayOut_congr hsrc x y
  | convolution =>
    show u.rgbaAt x y = u'.rgbaAt x y
    rw [call_rgbaAt hs hb he ht hu hi hx hy, call_rgbaAt hs' hb' he' ht' hu' (hij ▸ hi) hx' hy', ← hw, ← hh]
    exact sharpOut_congr hsrc x y

end Sys2Proof.Machine
end

section
/-! CERTIFICATE. The invariant of R44 and what it says of a cursor (R33), the parameters (R26, R31), and BUSY and DONE
(R23): one step at a time. -/

namespace Sys2Proof.Machine

/-- Settles O21: agent by agent, as `step_keeps_inv` shows. -/
theorem everyStepKeepsTheMachineInvariant : Obligations.EveryStepKeepsTheMachineInvariant :=
  fun _ _ => step_keeps_inv

theorem hostEffect_parameters {s t : State} (h : HostEffect s t) :
    t.nwork = s.nwork ∧ t.xmax = s.xmax ∧ t.ymax = s.ymax := by
  cases h <;> exact ⟨rfl, rfl, rfl⟩

/-- Settles O24: no agent's step writes the parameters, and a reset starts again with the engine's own. -/
theorem parametersNeverChange : Obligations.ParametersNeverChange := by
  intro s t h
  rcases step_by_agent h with ⟨-, rfl⟩ | ⟨order, n, u, rfl, hagent⟩
  · exact ⟨rfl, rfl, rfl⟩
  · rcases hagent with ⟨-, -, he⟩ | ⟨-, -, rfl⟩ | ⟨i, -, hr, hw⟩ | ⟨-, rfl⟩
    · exact hostEffect_parameters (s := { s with schedule := order, draws := n }) he
    · exact ⟨rfl, rfl, rfl⟩
    · have hsame := workerStep_sameCall (i := i) (s := { s with schedule := order, draws := n }) hr hw
      exact ⟨hsame.nwork, hsame.xmax, hsame.ymax⟩
    · exact ⟨rfl, rfl, rfl⟩

/-! BUSY and DONE -/

/-- The host leaves BUSY and DONE, or its command between calls is accepted (R163). -/
theorem hostEffect_busy_done {s t : State} (h : HostEffect s t) :
    (t.status.busy = s.status.busy ∧ t.status.done = s.status.done)
      ∨ (s.status.busy = false ∧ t.status.busy = true ∧ t.status.done = false
        ∧ ∃ i rest, s.program = .write 0 (encode i) :: rest) := by
  cases h with
  | quiet => exact .inl ⟨rfl, rfl⟩
  | flagged e => exact .inl ⟨Status.raise_busy .., Status.raise_done ..⟩
  | config => exact .inl ⟨rfl, rfl⟩
  | source => exact .inl ⟨rfl, rfl⟩
  | started hb _ i rest hp => exact .inr ⟨hb, rfl, rfl, i, rest, hp⟩

theorem workerStep_status {s t : State} {i : Nat} (hr : s.workerReady i = true) (h : workerStep i s = .next t) :
    t.status = s.status := by
  obtain ⟨w, -, -, ⟨-, -, rfl⟩ | ⟨-, -, rfl⟩⟩ := workerStep_cases hr h <;> rfl

/-- R23: a step leaves BUSY and DONE, or is an accepted command, a JOIN or a reset. -/
theorem step_busy_done {s t : State} (h : step s = .next t) :
    (t.status.busy = s.status.busy ∧ t.status.done = s.status.done)
      ∨ (s.mover = some .host ∧ s.status.busy = false ∧ t.status.busy = true ∧ t.status.done = false
        ∧ ∃ i rest, s.program = .write 0 (encode i) :: rest)
      ∨ (s.mover = some .sequencer ∧ s.joinReady = true ∧ t.status.busy = false ∧ t.status.done = true)
      ∨ (s.mover = some .resetLine ∧ t.status.busy = false ∧ t.status.done = false) := by
  rcases step_by_agent h with ⟨-, rfl⟩ | ⟨order, n, u, rfl, hagent⟩
  · exact .inl ⟨rfl, rfl⟩
  · rcases hagent with ⟨hm, -, he⟩ | ⟨hm, hj, rfl⟩ | ⟨i, -, hr, hw⟩ | ⟨hm, rfl⟩
    · exact (hostEffect_busy_done he).imp_right fun hstart => .inl ⟨hm, hstart⟩
    · exact .inr (.inr (.inl ⟨hm, hj, rfl, rfl⟩))
    · have hst := workerStep_status (i := i) (s := { s with schedule := order, draws := n }) hr hw
      exact .inl ⟨congrArg Status.busy hst, congrArg Status.done hst⟩
    · exact .inr (.inr (.inr ⟨hm, rfl, rfl⟩))

/-- Settles O26: each edge of BUSY and DONE excludes all but the cases of `step_busy_done` that it names. -/
theorem busyAndDoneChangeOnlyAsStated : Obligations.BusyAndDoneChangeOnlyAsStated := by
  intro s t h
  rcases step_busy_done h with ⟨hb, hd⟩ | ⟨hm, hb, hb', hd', hp⟩ | ⟨hm, hj, hb', hd'⟩ | ⟨hm, hb', hd'⟩
  · simp_all
  · exact ⟨fun _ _ => ⟨hm, hp⟩, by simp [hb], by simp [hd'], fun _ _ => .inl ⟨hm, hb', hp⟩⟩
  · exact ⟨by simp [hb'], fun _ _ => .inl ⟨hm, hj⟩, fun _ _ => ⟨hm, hj⟩, by simp [hd']⟩
  · exact ⟨by simp [hb'], fun _ _ => .inr hm, by simp [hd'], fun _ _ => .inr hm⟩

/-- Settles O34: one column on is the next index, and so is the start of the next row. -/
theorem cursorVisitsRowMajor : Obligations.CursorVisitsRowMajor := by
  intro b w hx hy hf hc
  obtain ⟨hlo, -, -, -⟩ := (contains_iff ..).1 hc
  have hin := advance_contains hx hy hf hc
  refine ⟨?_, fun hf' => ⟨hin hf', ?_⟩, advance_bstart .., advance_bend ..⟩
  · rcases advance_cases hx hy hf hc with ⟨hcol, -, -, hfin⟩ | ⟨hcol, -, -, hfin⟩
    · simp [hfin, Nat.ne_of_lt hcol]
    · simp [hfin, hcol]
  · rcases advance_cases hx hy hf hc with ⟨-, hcx, hcy, -⟩ | ⟨hcol, hcx, hcy, -⟩
    · rw [hcx, hcy, Nat.add_assoc]
    · rw [hcx, hcy, Nat.add_one_mul]
      omega

end Sys2Proof.Machine
end

section
/-! CERTIFICATE. The running sum of the convolution as an integer (R136), and its closed form with the fixed kernel
(R38). -/

namespace Sys2Proof.Machine

/-- The exact value of one running sum (R136). -/
def laneTotal (K : Nat → Nat → Byte) (lane : Nat → Nat → Half) : Int :=
  (matrixEntries.map fun e => (K e.1 e.2).toInt * ((lane e.1 e.2).toNat : Int)).sum

/-- One 32-bit term is the exact product, modulo 2^32. -/
theorem term_eq_ofInt (k : Byte) (p : Half) :
    k.signExtend 32 * p.setWidth 32 = BitVec.ofInt 32 (k.toInt * (p.toNat : Int)) := by
  rw [BitVec.ofInt_mul, BitVec.ofInt_natCast, BitVec.ofNat_toNat]
  rfl

theorem foldl_terms_eq_ofInt (K : Nat → Nat → Byte) (lane : Nat → Nat → Half) (l : List (Nat × Nat)) (z : Int) :
    l.foldl (fun sum e => sum + (K e.1 e.2).signExtend 32 * (lane e.1 e.2).setWidth 32) (BitVec.ofInt 32 z)
      = BitVec.ofInt 32 (z + (l.map fun e => (K e.1 e.2).toInt * ((lane e.1 e.2).toNat : Int)).sum) := by
  induction l generalizing z with
  | nil => simp
  | cons e rest ih =>
    rw [List.foldl_cons, term_eq_ofInt, ← BitVec.ofInt_add, ih, List.map_cons, List.sum_cons, Int.add_assoc]

/-- R136: the 32-bit running sum is the exact one, modulo 2^32. -/
theorem laneSum_eq_ofInt (K : Nat → Nat → Byte) (lane : Nat → Nat → Half) :
    laneSum K lane = BitVec.ofInt 32 (laneTotal K lane) := by
  simpa [laneSum, laneTotal] using foldl_terms_eq_ofInt K lane matrixEntries 0

/-- R38: the kernel weighs the centre by 5, its four neighbours by -1 and the corners by 0. -/
theorem laneTotal_kernel (lane : Nat → Nat → Half) :
    laneTotal kernel lane
      = 5 * ((lane 1 1).toNat : Int) - (lane 0 1).toNat - (lane 2 1).toNat - (lane 1 0).toNat - (lane 1 2).toNat := by
  simp [laneTotal, matrixEntries, kernel, kernelRows]
  omega

/-- Settles O42: the closed form lies within 32 bits, so the sum modulo 2^32 is the closed form. -/
theorem sharpenSumClosedForm : Obligations.SharpenSumClosedForm := by
  intro lane
  have hc := (lane 1 1).isLt
  have hu := (lane 0 1).isLt
  have hd := (lane 2 1).isLt
  have hl := (lane 1 0).isLt
  have hr := (lane 1 2).isLt
  have hsum : (laneSum kernel lane).toInt = laneTotal kernel lane := by
    rw [laneSum_eq_ofInt, laneTotal_kernel]
    exact BitVec.toInt_ofInt_eq_self (by decide) (by omega) (by omega)
  rw [hsum, laneTotal_kernel]
  omega

end Sys2Proof.Machine
end

section
/-! CERTIFICATE. The host port: the frame of register writes (R171, R173), and what registers and windows read (R161,
R169, R170). -/

namespace Sys2Proof.Machine

/-! Writes -/

/-- A write of SRC_LO or SRC_HI is refused, or stores to the selected cell (R168). -/
theorem writeSource_cases (put : Sample → Sample) (s : State) :
    (∃ e, writeSource put s = s.refuse e) ∨ ∃ p, writeSource put s = s.writeSrc s.pxX.toNat s.pxY.toNat p := by
  unfold writeSource
  split
  · exact .inl ⟨_, rfl⟩
  · split
    · exact .inr ⟨_, rfl⟩
    · exact .inl ⟨_, rfl⟩

/-- A write to any index but CMD is refused, or changes the one register or source cell the index names. -/
theorem hostWrite_cases {idx : BitVec 5} (h : idx ≠ 0) (v : Word) (s : State) :
    ∃ t, hostWrite idx v s = .next t ∧
      ((∃ e, t = s.refuse e)
        ∨ (idx = 2 ∧ ∃ w, t = { s with width := w })
        ∨ (idx = 3 ∧ ∃ w, t = { s with height := w })
        ∨ (idx = 5 ∧ ∃ p, t = { s with pxX := p })
        ∨ (idx = 6 ∧ ∃ p, t = { s with pxY := p })
        ∨ ((idx = 7 ∨ idx = 8) ∧ ∃ p, t = s.writeSrc s.pxX.toNat s.pxY.toNat p)) := by
  unfold hostWrite
  split
  · rename_i h0
    exact absurd (BitVec.eq_of_toNat_eq h0) h
  · rename_i h2
    refine ⟨_, rfl, ?_⟩
    unfold writeWidth
    split
    · exact .inl ⟨_, rfl⟩
    · exact .inr (.inl ⟨BitVec.eq_of_toNat_eq h2, _, rfl⟩)
  · rename_i h3
    refine ⟨_, rfl, ?_⟩
    unfold writeHeight
    split
    · exact .inl ⟨_, rfl⟩
    · exact .inr (.inr (.inl ⟨BitVec.eq_of_toNat_eq h3, _, rfl⟩))
  · rename_i h5
    exact ⟨_, rfl, .inr (.inr (.inr (.inl ⟨BitVec.eq_of_toNat_eq h5, _, rfl⟩)))⟩
  · rename_i h6
    exact ⟨_, rfl, .inr (.inr (.inr (.inr (.inl ⟨BitVec.eq_of_toNat_eq h6, _, rfl⟩))))⟩
  · rename_i h7
    exact ⟨_, rfl, (writeSource_cases _ s).imp_right fun hp =>
      .inr (.inr (.inr (.inr ⟨.inl (BitVec.eq_of_toNat_eq h7), hp⟩)))⟩
  · rename_i h8
    exact ⟨_, rfl, (writeSource_cases _ s).imp_right fun hp =>
      .inr (.inr (.inr (.inr ⟨.inr (BitVec.eq_of_toNat_eq h8), hp⟩)))⟩
  · exact ⟨_, rfl, .inl ⟨_, rfl⟩⟩

/-- A store to a source cell leaves every other cell, in canonical form or not. -/
theorem srcAt_writeSrc_other (s : State) (p : Sample) {x y x' y' : Half} (h : x' ≠ x ∨ y' ≠ y) :
    (s.writeSrc x.toNat y.toNat p).srcAt x'.toNat y'.toNat = s.srcAt x'.toNat y'.toNat := by
  have hkey : cellKey x'.toNat y'.toNat ≠ cellKey x.toNat y.toNat := by
    rw [Ne, cellKey_inj x'.isLt x.isLt, BitVec.toNat_inj, BitVec.toNat_inj]
    exact not_and_or.2 h
  exact Memory.get_set_other s.src _ hkey p

/-- Settles O56: a refusal changes STATUS alone, and every other case of `hostWrite_cases` one register or one cell. -/
theorem registerWriteFrame : Obligations.RegisterWriteFrame := by
  intro idx v s h
  obtain ⟨t, ht, hcase⟩ := hostWrite_cases h v s
  refine ⟨t, ht, ?_⟩
  rcases hcase with ⟨e, rfl⟩ | ⟨rfl, w, rfl⟩ | ⟨rfl, w, rfl⟩ | ⟨rfl, p, rfl⟩ | ⟨rfl, p, rfl⟩ | ⟨hidx, p, rfl⟩
  · exact ⟨rfl, fun _ _ => ⟨rfl, rfl⟩, fun _ => rfl, fun _ => rfl, fun _ => rfl, fun _ => rfl,
      fun _ _ => ⟨rfl, fun _ _ => rfl⟩, fun _ _ _ _ => rfl, .inr ⟨e, rfl⟩⟩
  · simp [State.grayAt, State.rgbaAt, State.srcAt]
  · simp [State.grayAt, State.rgbaAt, State.srcAt]
  · simp [State.grayAt, State.rgbaAt, State.srcAt]
  · simp [State.grayAt, State.rgbaAt, State.srcAt]
  · exact ⟨rfl, fun _ _ => ⟨rfl, rfl⟩, fun _ => rfl, fun _ => rfl, fun _ => rfl, fun _ => rfl,
      fun h7 h8 => absurd hidx (not_or.2 ⟨h7, h8⟩), fun _ _ _ hne => srcAt_writeSrc_other s p hne, .inl rfl⟩

/-! Reads -/

/-- Settles O47: each index is its own arm of `hostRead` or `hostWrite`. -/
theorem plainRegisterAccess : Obligations.PlainRegisterAccess :=
  fun _ => ⟨rfl, rfl, rfl, rfl, rfl, rfl, rfl, rfl, fun _ => ⟨rfl, rfl⟩⟩

/-- R184: after reset WIDTH is 0, so any command is refused with ERR_DIM. -/
theorem exec_atReset (i : Instr) (n x y : Half) (k : Nat) :
    exec i (State.atReset n x y k) = .next ((State.atReset n x y k).refuse .dim) := by
  have hd : (State.atReset n x y k).dimsLegal = false := rfl
  rcases offer_cases (State.atReset n x y k) i.xform i.executor with ⟨hb, -⟩ | ⟨-, -, ho⟩ | ⟨-, hd', -⟩
  · cases hb
  · rw [exec_eq, ho]
  · cases hd.symm.trans hd'

/-- Settles O20: the plain registers show the fields that reset fixes. -/
theorem resetValues : Obligations.ResetValues := by
  refine ⟨rfl, ?_⟩
  rintro n x y k s rfl
  have hstatus : Status.reset.word = 0 := by decide
  exact ⟨rfl, hstatus, rfl, rfl, rfl, rfl, rfl, rfl, rfl, fun i => exec_atReset i n x y k⟩

/-- Settles O48: the bits up to 13 one by one, and every bit above them is 0. -/
theorem statusRegisterLayout : Obligations.StatusRegisterLayout := by
  refine fun s => ⟨rfl, fun k => ?_⟩
  show s.status.word.getLsbD k = _
  simp only [Status.word, BitVec.getLsbD_append, BitVec.getLsbD_ofBool, BitVec.getLsbD_zero]
  rcases Nat.lt_or_ge k 14 with hk | hk
  · interval_cases k <;> simp
  · obtain ⟨j, rfl⟩ := Nat.exists_eq_add_of_le' hk
    simp

/-- The read of an output window that would show `v`: locked during a call, else checked for range (R169, R170). -/
def lockedRead (v : Word) (s : State) : Word × State :=
  if s.status.busy then s.refuseRead .lock else if s.inRange then (v, s) else s.refuseRead .range

theorem hostRead_grayData (s : State) :
    hostRead 9 s = lockedRead ((s.grayAt s.pxX.toNat s.pxY.toNat).setWidth 32) s := rfl

theorem hostRead_rgbaData (s : State) :
    hostRead 10 s = lockedRead (s.rgbaAt s.pxX.toNat s.pxY.toNat).word s := rfl

/-- What a read of an output window does: lock first, then range, then the value. -/
theorem lockedRead_spec (v : Word) (s : State) :
    (s.status.busy = true →
        (lockedRead v s).2
          = { s with status := { s.status with errLock := true }, draws := (lockedRead v s).2.draws })
      ∧ (s.status.busy = false → ¬(s.pxX < s.width ∧ s.pxX < s.xmax ∧ s.pxY < s.height ∧ s.pxY < s.ymax) →
        (lockedRead v s).2
          = { s with status := { s.status with errRange := true }, draws := (lockedRead v s).2.draws })
      ∧ (s.status.busy = false → s.pxX < s.width ∧ s.pxX < s.xmax ∧ s.pxY < s.height ∧ s.pxY < s.ymax →
        lockedRead v s = (v, s)) := by
  rw [← inRange_iff]
  refine ⟨fun hb => ?_, fun hb hr => ?_, fun hb hr => ?_⟩
  · rw [lockedRead, if_pos hb]; rfl
  · rw [lockedRead, if_neg (by simp [hb]), if_neg hr]; rfl
  · rw [lockedRead, if_neg (by simp [hb]), if_pos hr]

/-- Settles O52: GRAY_DATA is a locked read of the gray cell. -/
theorem grayWindowReads : Obligations.GrayWindowReads := by
  intro s
  rw [hostRead_grayData]
  exact lockedRead_spec _ s

/-- Settles O53: RGBA_DATA is a locked read of the RGBA cell's four lanes. -/
theorem rgbaWindowReads : Obligations.RgbaWindowReads := by
  intro s
  rw [hostRead_rgbaData]
  exact lockedRead_spec _ s

end Sys2Proof.Machine
end

section
/-! SUPPORT. A worker with a step to take stands inside the target of its call, so every cell it names exists (R62). -/

namespace Sys2Proof.Machine

theorem workerReady_iff (s : State) (i : Nat) :
    s.workerReady i = true ↔ s.status.busy = true ∧ ∃ w, s.workers[i]? = some w ∧ w.fin = false := by
  unfold State.workerReady
  cases s.workers[i]? <;> simp

/-- During a call the cursor of an unfinished worker is a pixel of the target: of the image, or of its interior (R36). -/
theorem unfinished_worker_inTarget {s : State} (hc : s.ControlInv) (hw : s.WorkersInv) {i : Nat} {w : Worker}
    (hi : s.workers[i]? = some w) (hf : w.fin = false) :
    inTarget s.lxform s.wl.toNat s.hl.toNat w.cx.toNat w.cy.toNat := by
  obtain ⟨hn, hcont⟩ := unfinished_worker hc hw hi hf
  have hbounds := boundsOf_worker hw hn
  rw [worker_of_getElem? hi] at hbounds
  rw [hbounds] at hcont
  exact ((contains_loopBounds (band_le hn).2.1).1 hcont).1

/-- A pixel of the image is a cell of the grid. -/
theorem cellExists_of_inTarget {s : State} (hl : s.LatchInv) {x y : Nat}
    (h : inTarget .luminance s.wl.toNat s.hl.toNat x y) : s.cellExists x y = true := by
  obtain ⟨-, -, -, hwl, -, hhl, -⟩ := hl
  obtain ⟨hx, hy⟩ := h
  exact (cellExists_iff ..).2 ⟨by omega, by omega⟩

/-- All nine neighbours of an interior pixel are cells of the grid. -/
theorem neighboursExist_of_inTarget {s : State} (hl : s.LatchInv) {x y : Nat}
    (h : inTarget .convolution s.wl.toNat s.hl.toNat x y) : s.neighboursExist x y = true := by
  obtain ⟨-, -, -, hwl, -, hhl, -⟩ := hl
  obtain ⟨hx, hx', hy, hy'⟩ := h
  exact (neighboursExist_iff ..).2 ⟨hx, hy, by omega, by omega⟩

/-- R62, R180: a WORKER step never raises the fault for a cell the grid lacks. -/
theorem workerStep_answers {s : State} (hi : s.Inv) {i : Nat} (hr : s.workerReady i = true) :
    ∃ t, workerStep i s = .next t := by
  obtain ⟨hb, w, hw, hf⟩ := (workerReady_iff s i).1 hr
  obtain ⟨hc, -, hcall⟩ := hi
  obtain ⟨hl, hws, -⟩ := hcall hb
  have hin := unfinished_worker_inTarget hc hws hw hf
  cases hx : s.lxform with
  | luminance =>
    have hcell := cellExists_of_inTarget hl (hx ▸ hin)
    simp [workerStep, hw, hr, hx, grayWorkerStep, hcell]
  | convolution =>
    have hcells := neighboursExist_of_inTarget hl (hx ▸ hin)
    simp [workerStep, hw, hr, hx, sharpWorkerStep, hcells]

end Sys2Proof.Machine
end

section
/-! SUPPORT. What a command and a step that is no reset leave of the grids (R61, R71, R79). -/

namespace Sys2Proof.Machine

/-- A command is refused, or starts its own transform and executor (R162). -/
theorem exec_cases {i : Instr} {s t : State} (h : exec i s = .next t) :
    (∃ e, t = s.refuse e) ∨ t = s.start i.xform i.executor := by
  obtain rfl : s.offer i.xform i.executor = t := by simpa [exec_eq] using h
  rcases offer_cases s i.xform i.executor with ⟨-, ho⟩ | ⟨-, -, ho⟩ | ⟨-, -, ho⟩
  · exact .inl ⟨_, ho⟩
  · exact .inl ⟨_, ho⟩
  · exact .inr ho

/-- A step during a call that is no reset continues the call, or joins it with its grids and latches as they were. -/
theorem busy_step_sameCall {s t : State} (hb : s.status.busy = true) (h : step s = .next t)
    (hm : s.mover ≠ some .resetLine) : ∃ v, SameCall s v ∧ (t = v ∨ t = v.join) := by
  rcases step_by_agent h with ⟨-, rfl⟩ | ⟨order, n, u, hu, hagent⟩
  · exact ⟨t, .refl hb, .inl rfl⟩
  · have hub : u.status.busy = true := hu ▸ hb
    have hsu : SameCall s u := hu ▸ .rescheduled hb order n
    rcases hagent with ⟨-, -, he⟩ | ⟨-, -, rfl⟩ | ⟨i, -, hr, hw⟩ | ⟨hm', -⟩
    · exact ⟨t, hsu.trans (hostEffect_sameCall hub he), .inl rfl⟩
    · exact ⟨u, hsu, .inr rfl⟩
    · exact ⟨t, hsu.trans (workerStep_sameCall (hu ▸ hr) hw), .inl rfl⟩
    · exact absurd hm' hm

/-- From `s` to `t` the grid that is not the target keeps its cells, and between calls both grids do (R79). The reset
values of unwritten cells stay. -/
structure KeepsOtherGrid (s t : State) : Prop where
  epoch : t.epoch = s.epoch
  rgba : t.lxform = .luminance → t.rgba = s.rgba
  gray : t.lxform = .convolution → t.gray = s.gray
  idle : s.status.busy = false → t.status.busy = false → t.gray = s.gray ∧ t.rgba = s.rgba

theorem KeepsOtherGrid.of_same {s t : State} (he : t.epoch = s.epoch) (hg : t.gray = s.gray) (hr : t.rgba = s.rgba) :
    KeepsOtherGrid s t :=
  ⟨he, fun _ => hr, fun _ => hg, fun _ _ => ⟨hg, hr⟩⟩

theorem KeepsOtherGrid.rgbaAt {s t : State} (h : KeepsOtherGrid s t) (hx : t.lxform = .luminance) (x y : Nat) :
    t.rgbaAt x y = s.rgbaAt x y := by rw [State.rgbaAt, h.rgba hx, h.epoch, State.rgbaAt]

theorem KeepsOtherGrid.grayAt {s t : State} (h : KeepsOtherGrid s t) (hx : t.lxform = .convolution) (x y : Nat) :
    t.grayAt x y = s.grayAt x y := by rw [State.grayAt, h.gray hx, h.epoch, State.grayAt]

theorem KeepsOtherGrid.idleAt {s t : State} (h : KeepsOtherGrid s t) (hb : s.status.busy = false)
    (hb' : t.status.busy = false) (x y : Nat) : t.grayAt x y = s.grayAt x y ∧ t.rgbaAt x y = s.rgbaAt x y := by
  obtain ⟨hg, hr⟩ := h.idle hb hb'
  constructor
  · rw [State.grayAt, hg, h.epoch, State.grayAt]
  · rw [State.rgbaAt, hr, h.epoch, State.rgbaAt]

/-- The choice of the agent touches no grid. -/
theorem KeepsOtherGrid.rescheduled {s t : State} {order : List Agent} {n : Nat}
    (h : KeepsOtherGrid { s with schedule := order, draws := n } t) : KeepsOtherGrid s t :=
  ⟨h.epoch, h.rgba, h.gray, h.idle⟩

/-- START fills the target grid alone (R163). -/
theorem start_keepsOtherGrid (s : State) (x : Xform) (e : Executor) : KeepsOtherGrid s (s.start x e) := by
  cases x with
  | luminance => exact ⟨rfl, fun _ => rfl, nofun, fun _ => nofun⟩
  | convolution => exact ⟨rfl, nofun, fun _ => rfl, fun _ => nofun⟩

theorem hostEffect_keepsOtherGrid {s t : State} (h : HostEffect s t) : KeepsOtherGrid s t := by
  cases h with
  | quiet => exact .of_same rfl rfl rfl
  | flagged => exact .of_same rfl rfl rfl
  | config => exact .of_same rfl rfl rfl
  | source => exact .of_same rfl rfl rfl
  | started _ _ i rest _ =>
    have hstart := start_keepsOtherGrid { s with program := rest } i.xform i.executor
    exact ⟨hstart.epoch, hstart.rgba, hstart.gray, hstart.idle⟩

theorem SameCall.keepsOtherGrid {s t : State} (h : SameCall s t) : KeepsOtherGrid s t :=
  ⟨h.epoch, fun hx => h.rgba (h.lxform.symm.trans hx), fun hx => h.gray (h.lxform.symm.trans hx),
    fun _ hb => by cases h.busy.symm.trans hb⟩

/-- R79: no step but a reset writes the grid that is not the target, and none between calls writes either. -/
theorem step_keepsOtherGrid {s t : State} (h : step s = .next t) (hm : s.mover ≠ some .resetLine) :
    KeepsOtherGrid s t := by
  rcases step_by_agent h with ⟨-, rfl⟩ | ⟨order, n, u, rfl, hagent⟩
  · exact .of_same rfl rfl rfl
  · rcases hagent with ⟨-, -, he⟩ | ⟨-, -, rfl⟩ | ⟨i, -, hr, hw⟩ | ⟨hm', -⟩
    · exact .rescheduled (hostEffect_keepsOtherGrid he)
    · exact .of_same rfl rfl rfl
    · have hready : State.workerReady { s with schedule := order, draws := n } i = true := hr
      exact .rescheduled (workerStep_sameCall hready hw).keepsOtherGrid
    · exact absurd hm' hm

end Sys2Proof.Machine
end

section
/-! CERTIFICATE. The grids as memory: no access outside them (R62), the frame of commands and steps (R61, R71, R79),
reads (R68), the byte order (R64), and idling (R74). -/

namespace Sys2Proof.Machine

/-- Settles O22: only a WORKER step could fault, and `workerStep_answers` rules that out under the invariant. -/
theorem noStepFaults : Obligations.NoStepFaults := by
  intro s hi
  unfold step
  cases hp : s.pick with
  | none => exact ⟨s, rfl⟩
  | some choice =>
    obtain ⟨a, u⟩ := choice
    obtain ⟨he, order, n, hu⟩ := pick_spec hp
    have hiu : u.Inv := hu ▸ hi
    cases a with
    | host =>
      obtain ⟨t, ht, -⟩ := hostStep_effect u
      exact ⟨t, ht⟩
    | sequencer => exact ⟨_, rfl⟩
    | worker i => exact workerStep_answers hiu (hu ▸ he)
    | resetLine => exact ⟨_, rfl⟩

/-- Settles O12: a refusal raises one flag, and START fills no grid but its target. -/
theorem commandFrame : Obligations.CommandFrame := by
  intro i s t h
  rcases exec_cases h with ⟨e, rfl⟩ | rfl
  · exact ⟨rfl, fun _ _ => rfl, fun _ _ _ => rfl, fun _ _ _ => rfl, fun f hf => (has_raise e f _).2 (.inr hf)⟩
  · have hkeep := start_keepsOtherGrid s i.xform i.executor
    refine ⟨rfl, fun _ _ => rfl, hkeep.rgbaAt, hkeep.grayAt, fun f hf => ?_⟩
    rwa [State.start_status, Status.has_started]

/-- Settles O23: the state after the step is of the same call, before its JOIN or after it. -/
theorem callInputsAreConstant : Obligations.CallInputsAreConstant := by
  intro s t hb h hm
  obtain ⟨v, hv, rfl | rfl⟩ := busy_step_sameCall hb h hm <;>
    exact ⟨hv.src, fun x y => congrFun₂ hv.srcAt x y, hv.width, hv.height, hv.nwork, hv.lxform, hv.lexec, hv.wl, hv.hl,
      hv.neff⟩

/-- Settles O27: agent by agent, as `step_keepsOtherGrid` shows. -/
theorem destinationsChangeOnlyInTheirOwnCall : Obligations.DestinationsChangeOnlyInTheirOwnCall := by
  intro s t h hm
  have hkeep := step_keepsOtherGrid h hm
  exact ⟨hkeep.rgbaAt, hkeep.grayAt, hkeep.idleAt⟩

/-- Settles O55: a read answers the state it was given, or that state refused. -/
theorem readsChangeNoData : Obligations.ReadsChangeNoData := by
  intro idx s
  rcases hostRead_state idx s with h | ⟨e, h | h⟩ <;> rw [h]
  · exact ⟨rfl, .inl rfl⟩
  · exact ⟨rfl, .inr ⟨e, rfl⟩⟩
  · exact ⟨rfl, .inr ⟨e, rfl⟩⟩

/-- Each byte slice of four concatenated bytes is the byte put there. -/
theorem extractLsb'_byteLanes (a b g r : Byte) :
    (a ++ b ++ g ++ r).extractLsb' 0 8 = r ∧ (a ++ b ++ g ++ r).extractLsb' 8 8 = g
      ∧ (a ++ b ++ g ++ r).extractLsb' 16 8 = b ∧ (a ++ b ++ g ++ r).extractLsb' 24 8 = a := by
  refine ⟨?_, ?_, ?_, ?_⟩
  · rw [BitVec.extractLsb'_append_eq_right]
  · rw [BitVec.extractLsb'_append_eq_of_le (by decide), BitVec.extractLsb'_append_eq_right]
  · rw [BitVec.extractLsb'_append_eq_of_le (by decide), BitVec.extractLsb'_append_eq_of_le (by decide),
      BitVec.extractLsb'_append_eq_right]
  · rw [BitVec.extractLsb'_append_eq_of_le (by decide), BitVec.extractLsb'_append_eq_of_le (by decide),
      BitVec.extractLsb'_append_eq_left]

/-- Settles O58: the register's byte slices are the four lanes of the pixel's word. -/
theorem rgbaBytesInAddressOrder : Obligations.RgbaBytesInAddressOrder := by
  intro c
  obtain ⟨hr, hg, hb, ha⟩ := extractLsb'_byteLanes c.a c.b c.g c.r
  rw [registerBytes, Pixel.word, hr, hg, hb, ha]

theorem firstScheduled_of_nobody {s : State} (h : ∀ a, s.enabled a = false) (order : List Agent) :
    s.firstScheduled order = none := by
  induction order with
  | nil => rfl
  | cons a rest ih => rw [State.firstScheduled, if_neg (by simp [h a]), ih]

/-- Log 10: with nobody enabled no agent is picked. -/
theorem pick_of_nobody {s : State} (h : ∀ a, s.enabled a = false) : s.pick = none := by
  have hfilter : s.agents.filter s.enabled = [] := List.filter_eq_nil_iff.2 fun a _ => by simp [h a]
  simp [State.pick, firstScheduled_of_nobody h, hfilter]

/-- Settles O59: nobody is picked; after reset the program is empty, BUSY is 0 and no pulse is to come. -/
theorem idleEngineStays : Obligations.IdleEngineStays := by
  refine ⟨fun s h => by rw [step, pick_of_nobody h], fun n x y k a => ?_⟩
  cases a with
  | host => rfl
  | sequencer => rfl
  | worker i => rfl
  | resetLine => rfl

end Sys2Proof.Machine
end

section
/-! CERTIFICATE. The command word: its format (R90, R91), the opcode map as the inverse of the decoder (R93), and the
polling of STATUS by WAIT (R98). -/

namespace Sys2Proof.Machine

/-! The fields of a word (R90) -/

theorem commandWordLegal_iff (w : Word) : commandWordLegal w = true ↔ w.extractLsb' 2 30 = 0 := beq_iff_eq

theorem wordXform_eq_convolution_iff (w : Word) : wordXform w = .convolution ↔ w.getLsbD 0 = true := by
  unfold wordXform
  split <;> simp_all

theorem wordExecutor_eq_parallel_iff (w : Word) : wordExecutor w = .parallel ↔ w.getLsbD 1 = true := by
  unfold wordExecutor
  split <;> simp_all

@[simp] theorem commandOf_xform (x : Xform) (e : Executor) : (commandOf x e).xform = x := by
  cases x <;> cases e <;> rfl

@[simp] theorem commandOf_executor (x : Xform) (e : Executor) : (commandOf x e).executor = e := by
  cases x <;> cases e <;> rfl

@[simp] theorem commandOf_xform_executor (i : Instr) : commandOf i.xform i.executor = i := by cases i <;> rfl

/-! The decoder (R91) -/

/-- R94: a word with `w[31:2] ≠ 0` is illegal. -/
theorem decode_of_zeroField_ne {w : Word} (h : w.extractLsb' 2 30 ≠ 0) : decode w = .error .zeroFieldNotZero :=
  if_neg (mt (commandWordLegal_iff w).1 h)

theorem decode_of_zeroField_eq {w : Word} (h : w.extractLsb' 2 30 = 0) :
    decode w = .ok (commandOf (wordXform w) (wordExecutor w)) :=
  if_pos ((commandWordLegal_iff w).2 h)

/-- R90: the word of every command has format C. -/
theorem encode_formatC (i : Instr) : Laws.FormatC.Statement i := by
  cases i with
  | graySeq => exact Laws.FormatC.graySeq
  | sharpSeq => exact Laws.FormatC.sharpSeq
  | grayPar => exact Laws.FormatC.grayPar
  | sharpPar => exact Laws.FormatC.sharpPar

/-- The decoder reads back the two bits the opcode map gives a command, and these name it. -/
theorem decode_encode (i : Instr) : decode (encode i) = .ok i := by
  obtain ⟨-, hlegal, hx, he⟩ := encode_formatC i
  rw [decode_of_zeroField_eq ((commandWordLegal_iff _).1 hlegal), hx, he, commandOf_xform_executor]

/-- Settles O3: `decode_encode` and its converse `encode_of_decode`. -/
theorem decodeAndEncodeAgree : Obligations.DecodeAndEncodeAgree := by
  refine ⟨fun i _ => decode_encode i, fun w i h => ⟨encode_of_decode h, ?_⟩⟩
  obtain ⟨hwf, -⟩ := encode_formatC i
  exact hwf

/-- Settles O2: a legal word decodes to the command of its two bits, whose transform and executor these are. -/
theorem decodingReadsTheFormat : Obligations.DecodingReadsTheFormat := by
  refine fun w => ⟨decode_of_zeroField_ne, fun h => ⟨_, decode_of_zeroField_eq h, ?_, ?_⟩⟩
  · rw [commandOf_xform, wordXform_eq_convolution_iff]
  · rw [commandOf_executor, wordExecutor_eq_parallel_iff]

/-- Settles O1: the four words are those of the opcode map, and the other two have a bit set above bit 1. -/
theorem commandWordsOfTheOpcodeMap : Obligations.CommandWordsOfTheOpcodeMap :=
  ⟨decode_encode .graySeq, decode_encode .sharpSeq, decode_encode .grayPar, decode_encode .sharpPar,
    decode_of_zeroField_ne (by decide), decode_of_zeroField_ne (by decide)⟩

/-! WAIT (R98) -/

/-- R161: a read of STATUS answers its word and changes nothing. -/
theorem hostRead_status (s : State) : hostRead 1 s = (s.status.word, s) := rfl

theorem replyTo_status (s : State) : replyTo 1 s = { s with replies := (1#5, s.status.word) :: s.replies } := rfl

/-- R98: with WAIT first, the host reads STATUS and keeps WAIT exactly while BUSY = 1. -/
theorem hostStep_of_wait {s : State} {rest : List HostOp} (h : s.program = .wait :: rest) :
    hostStep s = .next (replyTo 1 { s with program := if s.status.busy then .wait :: rest else rest }) := by
  rw [hostStep, h]

/-- Settles O57: the one read of a WAIT answers STATUS, which does not depend on the program. -/
theorem waitPollsStatus : Obligations.WaitPollsStatus := by
  intro s rest h
  rw [agentStep, hostStep_of_wait h, replyTo_status, hostRead_status]

end Sys2Proof.Machine
end

section
/-! CERTIFICATE. The partitioner: the bands tile the rows (R112), and how many rows each holds (R113, R114, R115). -/

namespace Sys2Proof.Machine

/-- R112: every band ends no later than a band of a higher index starts. -/
theorem band_end_le_start {H N i j : Nat} (hij : i < j) (hj : j < N) : (band H N i).2 ≤ (band H N j).1 := by
  rw [band_of_lt (by omega), (band_le hj).2.2]
  exact Nat.mul_le_mul_right _ hij

/-- R112: the bands are pairwise disjoint. -/
theorem eq_of_mem_band {H N i j y : Nat} (hi : i < N) (hj : j < N) (hyi : (band H N i).1 ≤ y ∧ y < (band H N i).2)
    (hyj : (band H N j).1 ≤ y ∧ y < (band H N j).2) : i = j := by
  rcases Nat.lt_trichotomy i j with h | h | h
  · have := band_end_le_start (H := H) h hj
    omega
  · exact h
  · have := band_end_le_start (H := H) h hi
    omega

/-- R112: consecutive bands abut. -/
theorem band_end_eq_start_succ {H N i : Nat} (h : i + 1 < N) : (band H N i).2 = (band H N (i + 1)).1 := by
  rw [band_of_lt h, (band_le h).2.2]

/-- R113: a band but the last holds `H / N` rows. -/
theorem band_size_of_lt {H N i : Nat} (h : i + 1 < N) : (band H N i).2 - (band H N i).1 = H / N := by
  rw [band_of_lt h, ← Nat.sub_mul, Nat.add_sub_cancel_left, Nat.one_mul]

/-- R113: the last band holds the remainder too. -/
theorem band_size_last {H N i : Nat} (h : i + 1 = N) : (band H N i).2 - (band H N i).1 = H / N + H % N := by
  have hrows : H = H / N + H % N + i * (H / N) := by
    rw [Nat.add_right_comm, Nat.add_comm (H / N), ← Nat.add_one_mul, h, Nat.div_add_mod]
  rw [band_last h]
  exact Nat.sub_eq_of_eq_add hrows

/-- R114: with fewer rows than workers every band but the last is empty. -/
theorem band_of_rows_lt {H N i : Nat} (hH : H < N) (h : i + 1 < N) : band H N i = (0, 0) := by
  rw [band_of_lt h, Nat.div_eq_of_lt hH, Nat.mul_zero, Nat.mul_zero]

/-- R114: with fewer rows than workers the last worker has the whole image. -/
theorem band_last_of_rows_lt {H N i : Nat} (hH : H < N) (h : i + 1 = N) : band H N i = (0, H) := by
  rw [band_last h, Nat.div_eq_of_lt hH, Nat.mul_zero]

/-- R115: the sequential executor's band is the whole image. -/
theorem band_one_worker (H : Nat) : band H 1 0 = (0, H) := by rw [band_last rfl, Nat.zero_mul]

/-- Settles O37: `exists_band_iff` gives a row its band, and `eq_of_mem_band` says that it is the only one. -/
theorem bandsTileTheRows : Obligations.BandsTileTheRows := by
  intro H N _ hN
  refine ⟨?_, ?_, fun i => band_end_eq_start_succ, fun i hi => ?_, fun y hy => ?_⟩
  · rw [(band_le hN).2.2, Nat.zero_mul]
  · rw [band_last (Nat.sub_add_cancel hN)]
  · obtain ⟨hle, hend, -⟩ := band_le (H := H) hi
    exact ⟨hle, hend⟩
  · obtain ⟨i, hi, hyi⟩ := (exists_band_iff hN y).2 hy
    exact ⟨i, hi, hyi, fun j hj hs he => eq_of_mem_band hj hi ⟨hs, he⟩ hyi⟩

/-- Settles O38: one lemma for each kind of band. -/
theorem bandSizes : Obligations.BandSizes := by
  intro H N _ hN
  have hlast : N - 1 + 1 = N := Nat.sub_add_cancel hN
  exact ⟨fun i => band_size_of_lt, band_size_last hlast,
    fun hH => ⟨fun i => band_of_rows_lt hH, band_last_of_rows_lt hH hlast⟩, band_one_worker H⟩

end Sys2Proof.Machine
end

section
/-! SUPPORT. The work a call has left (R164): the whole target at START (R208), and none when JOIN is enabled. -/

namespace Sys2Proof.Machine

/-! The pixels of a band -/

/-- The row at which band `i` starts and the bands below it end (R112). -/
def bandEdge (H N i : Nat) : Nat := if i < N then i * (H / N) else H

theorem band_eq_edges {H N i : Nat} (h : i < N) : band H N i = (bandEdge H N i, bandEdge H N (i + 1)) := by
  rcases Nat.lt_or_ge (i + 1) N with h' | h'
  · rw [band_of_lt h', bandEdge, bandEdge, if_pos h, if_pos h']
  · rw [band_last (by omega), bandEdge, bandEdge, if_pos h, if_neg (by omega)]

theorem bandEdge_mono (H N : Nat) : Monotone (bandEdge H N) := by
  refine monotone_nat_of_le_succ fun i => ?_
  rcases Nat.lt_or_ge i N with h | h
  · have hle := (band_le (H := H) h).1
    rwa [band_eq_edges h] at hle
  · simp only [bandEdge, if_neg (Nat.not_lt.2 h), if_neg (Nat.not_lt.2 (Nat.le_succ_of_le h)), le_rfl]

/-- How many of the rows before row `y` hold pixels of the target (R122, R141). -/
def targetRowsBefore (x : Xform) (H y : Nat) : Nat :=
  match x with
  | .luminance => min y H
  | .convolution => min (y - 1) (H - 2)

/-- How many columns hold pixels of the target (R122, R141). -/
def targetColumns (x : Xform) (W : Nat) : Nat :=
  match x with
  | .luminance => W
  | .convolution => W - 2

theorem targetRowsBefore_mono (x : Xform) (H : Nat) : Monotone (targetRowsBefore x H) := by
  intro y y' h
  cases x <;> simp only [targetRowsBefore] <;> omega

/-- The size of the target is the number of WORKER steps of a call (R208). -/
theorem callSteps_eq (x : Xform) (W H : Nat) : callSteps x W H = targetRowsBefore x H H * targetColumns x W := by
  cases x <;> simp only [callSteps, targetRowsBefore, targetColumns]
  · rw [Nat.min_self, Nat.mul_comm]
  · rw [Nat.min_eq_right (by omega), Nat.mul_comm]

/-- A row range has as many rows to process as the target has in it. -/
theorem loopBounds_rows (x : Xform) (W : Nat) {H bs be : Nat} (hs : bs ≤ be) (he : be ≤ H) :
    (loopBounds x W H bs be).yhi - (loopBounds x W H bs be).ylo
      = targetRowsBefore x H be - targetRowsBefore x H bs := by
  cases x <;> simp only [loopBounds, targetRowsBefore] <;> omega

theorem loopBounds_columns (x : Xform) (W H bs be : Nat) :
    (loopBounds x W H bs be).xhi - (loopBounds x W H bs be).xlo = targetColumns x W := by
  cases x <;> simp only [loopBounds, targetColumns] <;> omega

/-- R112: the rows of the `N` bands add up to the rows of the target, as each band ends where the next one starts. -/
theorem sum_band_rows {H N : Nat} (hN : 1 ≤ N) (x : Xform) :
    ∑ i ∈ Finset.range N, (targetRowsBefore x H (band H N i).2 - targetRowsBefore x H (band H N i).1)
      = targetRowsBefore x H H := by
  have hedges : ∀ i ∈ Finset.range N,
      targetRowsBefore x H (band H N i).2 - targetRowsBefore x H (band H N i).1
        = targetRowsBefore x H (bandEdge H N (i + 1)) - targetRowsBefore x H (bandEdge H N i) :=
    fun i hi => by rw [band_eq_edges (Finset.mem_range.1 hi)]
  have hzero : targetRowsBefore x H (bandEdge H N 0) = 0 := by
    rw [bandEdge, if_pos (by omega)]
    cases x <;> simp [targetRowsBefore]
  rw [Finset.sum_congr rfl hedges,
    Finset.sum_range_tsub (f := fun i => targetRowsBefore x H (bandEdge H N i))
      ((targetRowsBefore_mono x H).comp (bandEdge_mono H N)), hzero, bandEdge, if_neg (lt_irrefl N), Nat.sub_zero]

/-! The pixels a worker has left -/

/-- A worker at the first pixel of its bounds, or finished because it has none, has all of them left. -/
theorem remaining_of_first {b : Bounds} {w : Worker} (hx : w.cx.toNat = b.xlo) (hy : w.cy.toNat = b.ylo)
    (hf : w.fin = b.isEmpty) : w.remaining b = (b.yhi - b.ylo) * (b.xhi - b.xlo) := by
  rw [Worker.remaining, hf, hx, hy]
  split
  · rename_i he
    rcases (isEmpty_iff b).1 he with h | h <;> simp [Nat.sub_eq_zero_of_le h]
  · rename_i he
    have hrows : b.yhi - b.ylo = b.yhi - (b.ylo + 1) + 1 := by
      have := mt (isEmpty_iff b).2 he
      omega
    rw [hrows, Nat.add_one_mul, Nat.add_comm]

/-- R33: a step leaves one pixel fewer. -/
theorem advance_remaining {b : Bounds} {w : Worker} (hx : b.xhi ≤ 65535) (hy : b.yhi ≤ 65535) (hf : w.fin = false)
    (hc : b.contains w.cx.toNat w.cy.toNat = true) : w.remaining b = (w.advance b).remaining b + 1 := by
  obtain ⟨-, -, -, hrow⟩ := (contains_iff ..).1 hc
  rcases advance_cases hx hy hf hc with ⟨h, hcx, hcy, hfin⟩ | ⟨h, hcx, hcy, hfin⟩
  · simp only [Worker.remaining, hf, hfin, hcx, hcy, Bool.false_eq_true, if_false]
    omega
  · simp only [Worker.remaining, hf, hfin, hcx, hcy, Bool.false_eq_true, if_false]
    split
    · rename_i hlast
      rw [← hlast, ← h, Nat.sub_self, Nat.zero_mul, Nat.add_zero, Nat.add_sub_cancel_left]
    · have hrows : b.yhi - (w.cy.toNat + 1) = b.yhi - (w.cy.toNat + 1 + 1) + 1 := by omega
      rw [hrows, Nat.add_one_mul]
      omega

/-- A worker has nothing left exactly when it has finished. -/
theorem remaining_eq_zero_iff {b : Bounds} {w : Worker}
    (hc : w.fin = false → b.contains w.cx.toNat w.cy.toNat = true) : w.remaining b = 0 ↔ w.fin = true := by
  cases hf : w.fin with
  | true => simp [Worker.remaining, hf]
  | false =>
    have := (contains_iff ..).1 (hc hf)
    simp only [Worker.remaining, hf, Bool.false_eq_true, if_false, iff_false]
    omega

/-! The pixels a call has left -/

theorem remaining_eq_sum {s : State} (h : s.neff.toNat ≤ s.workers.length) :
    s.remaining = ∑ i ∈ Finset.range s.neff.toNat, (s.worker i).remaining (s.boundsOf (s.worker i)) := by
  have hworkers : s.callWorkers = (List.range s.neff.toNat).map s.worker := by
    refine List.ext_getElem (by simpa [State.callWorkers] using h) fun i hi _ => ?_
    have hlen : i < s.workers.length := by
      rw [State.callWorkers, List.length_take] at hi
      omega
    simp [State.callWorkers, worker_of_getElem? (List.getElem?_eq_getElem hlen)]
  rw [State.remaining, hworkers, List.map_map]
  rfl

/-- R164, R208: a call starts with the whole target left. -/
theorem start_remaining {s : State} (hc : s.ControlInv) (x : Xform) (e : Executor) :
    (s.start x e).remaining = callSteps x s.width.toNat s.height.toNat := by
  have hH : s.height.toNat ≤ 65535 := by have := s.height.isLt; omega
  obtain ⟨hpos, hle⟩ := workerCount_le hc e
  have hworker : ∀ i ∈ Finset.range (s.workerCount e).toNat,
      ((s.start x e).worker i).remaining ((s.start x e).boundsOf ((s.start x e).worker i))
        = (targetRowsBefore x s.height.toNat (band s.height.toNat (s.workerCount e).toNat i).2
            - targetRowsBefore x s.height.toNat (band s.height.toNat (s.workerCount e).toNat i).1)
          * targetColumns x s.width.toNat := by
    intro i hi
    have hi' := Finset.mem_range.1 hi
    have hb := boundsOf_worker (start_workersInv hc x e) hi'
    obtain ⟨-, -, hx, hy, hf⟩ := startedWorker_toNat (W := s.width.toNat) hH hi' x hb
    obtain ⟨hs, he, -⟩ := band_le (H := s.height.toNat) hi'
    have hwk := start_worker s x e (i := i) (by omega)
    rw [if_pos hi'] at hwk
    rw [← hwk] at hx hy hf
    rw [remaining_of_first hx hy hf, hb]
    exact congrArg₂ _ (loopBounds_rows x _ hs he) (loopBounds_columns ..)
  rw [remaining_eq_sum (by simpa using hle), callSteps_eq, ← sum_band_rows hpos, Finset.sum_mul]
  exact Finset.sum_congr rfl hworker

/-- A WORKER step leaves one pixel fewer. -/
theorem advanceWorker_remaining {s : State} (hc : s.ControlInv) (hl : s.LatchInv) (hw : s.WorkersInv) {i : Nat}
    {w : Worker} (hi : s.workers[i]? = some w) (hf : w.fin = false) :
    (s.advanceWorker i w).remaining + 1 = s.remaining := by
  obtain ⟨-, hle⟩ := neff_le_length hc hl
  obtain ⟨hn, hcont⟩ := unfinished_worker hc hw hi hf
  obtain ⟨hxhi, hyhi⟩ := boundsOf_le s w
  have key : ∀ j, (s.worker j).remaining (s.boundsOf (s.worker j))
      = ((s.advanceWorker i w).worker j).remaining ((s.advanceWorker i w).boundsOf ((s.advanceWorker i w).worker j))
        + if j = i then 1 else 0 := fun j => by
    rw [advanceWorker_worker hi, boundsOf_advanceWorker]
    by_cases hj : j = i
    · rw [if_pos hj, if_pos hj, boundsOf_advance, hj, worker_of_getElem? hi, advance_remaining hxhi hyhi hf hcont]
    · simp [hj]
  rw [remaining_eq_sum hle, remaining_eq_sum (by simpa using hle), Finset.sum_congr rfl fun j _ => key j,
    Finset.sum_add_distrib, Finset.sum_ite_eq', if_pos (Finset.mem_range.2 hn)]
  rfl

/-- During a call JOIN is enabled exactly when no pixel is left. -/
theorem joinReady_iff_remaining_eq_zero {s : State} (hi : s.Inv) (hb : s.status.busy = true) :
    s.joinReady = true ↔ s.remaining = 0 := by
  obtain ⟨hc, -, hcall⟩ := hi
  obtain ⟨hl, ⟨hband, hidle⟩, -⟩ := hcall hb
  have hle := (neff_le_length hc hl).2
  obtain ⟨-, -, -, hlen, -⟩ := hc
  have hall : s.joinReady = true ↔ ∀ i < s.workers.length, (s.worker i).fin = true := by
    simp only [State.joinReady, hb, Bool.true_and, List.all_eq_true, List.forall_mem_iff_getElem]
    refine forall₂_congr fun i hi => ?_
    rw [worker_of_getElem? (List.getElem?_eq_getElem hi)]
  rw [hall, remaining_eq_sum hle, Finset.sum_eq_zero_iff]
  have hone : ∀ i < s.neff.toNat,
      ((s.worker i).remaining (s.boundsOf (s.worker i)) = 0 ↔ (s.worker i).fin = true) := fun i hi =>
    remaining_eq_zero_iff (hband i hi).2.2
  constructor
  · intro h i hi
    have hi' := Finset.mem_range.1 hi
    exact (hone i hi').2 (h i (by omega))
  · intro h i hi
    rcases Nat.lt_or_ge i s.neff.toNat with hn | hn
    · exact (hone i hn).1 (h i (Finset.mem_range.2 hn))
    · exact hidle i (by omega) hn

end Sys2Proof.Machine
end

section
/-! SUPPORT. The WORKER steps as equations (R123, R142), and a schedule of them that takes a call to its JOIN (R164,
R165). -/

namespace Sys2Proof.Machine

/-- R123: the WORKER step of a GRAY command at a cell of the grid. -/
theorem workerStep_gray {s : State} {i : Nat} {w : Worker} (hb : s.status.busy = true) (hx : s.lxform = .luminance)
    (hw : s.workers[i]? = some w) (hf : w.fin = false) (hc : s.cellExists w.cx.toNat w.cy.toNat = true) :
    workerStep i s
      = .next ((s.writeGray w.cx.toNat w.cy.toNat (luminance (s.srcAt w.cx.toNat w.cy.toNat))).advanceWorker i w) := by
  have hr := (workerReady_iff s i).2 ⟨hb, w, hw, hf⟩
  simp only [workerStep, hw, hr, hx, grayWorkerStep, hc, if_true]

/-- R142: the WORKER step of a SHARP command at a centre whose neighbours are cells of the grid. -/
theorem workerStep_sharp {s : State} {i : Nat} {w : Worker} (hb : s.status.busy = true) (hx : s.lxform = .convolution)
    (hw : s.workers[i]? = some w) (hf : w.fin = false) (hc : s.neighboursExist w.cx.toNat w.cy.toNat = true) :
    workerStep i s
      = .next ((s.writeRgba w.cx.toNat w.cy.toNat (sharpCell s.srcAt w.cx.toNat w.cy.toNat)).advanceWorker i w) := by
  have hr := (workerReady_iff s i).2 ⟨hb, w, hw, hf⟩
  simp only [workerStep, hw, hr, hx, sharpWorkerStep, hc, if_true]

/-- A WORKER step does not depend on the schedule and leaves it. -/
theorem workerStep_withSchedule {s t : State} {i : Nat} (hr : s.workerReady i = true) (h : workerStep i s = .next t)
    (order : List Agent) : workerStep i { s with schedule := order } = .next { t with schedule := order } := by
  have hb : s.status.busy = true := (Bool.and_eq_true_iff.1 hr).1
  obtain ⟨w, hw, hf, ⟨hx, hcell, rfl⟩ | ⟨hx, hcell, rfl⟩⟩ := workerStep_cases hr h
  · exact workerStep_gray (s := { s with schedule := order }) hb hx hw hf hcell
  · exact workerStep_sharp (s := { s with schedule := order }) hb hx hw hf hcell

/-- R164: a WORKER step lowers the work left by one. -/
theorem workerStep_remaining {s t : State} (hi : s.Inv) {i : Nat} (hr : s.workerReady i = true)
    (h : workerStep i s = .next t) : t.remaining + 1 = s.remaining := by
  obtain ⟨hc, -, hcall⟩ := hi
  obtain ⟨hl, hws, -⟩ := hcall (Bool.and_eq_true_iff.1 hr).1
  obtain ⟨w, hw, hf, ⟨-, -, rfl⟩ | ⟨-, -, rfl⟩⟩ := workerStep_cases hr h
  · exact advanceWorker_remaining (s := s.writeGray ..) hc hl hws hw hf
  · exact advanceWorker_remaining (s := s.writeRgba ..) hc hl hws hw hf

/-- What the WORKER steps of a call leave: the call's inputs (R71), STATUS and the selected cell. -/
structure WorkersRan (s t : State) : Prop extends SameCall s t where
  status : t.status = s.status
  pxX : t.pxX = s.pxX
  pxY : t.pxY = s.pxY

theorem workerStep_workersRan {s t : State} {i : Nat} (hr : s.workerReady i = true) (h : workerStep i s = .next t) :
    WorkersRan s t := by
  have hsame := workerStep_sameCall hr h
  obtain ⟨w, -, -, ⟨-, -, rfl⟩ | ⟨-, -, rfl⟩⟩ := workerStep_cases hr h <;> exact ⟨hsame, rfl, rfl, rfl⟩

theorem WorkersRan.trans {s t u : State} (h : WorkersRan s t) (h' : WorkersRan t u) : WorkersRan s u :=
  ⟨h.toSameCall.trans h'.toSameCall, h'.status.trans h.status, h'.pxX.trans h.pxX, h'.pxY.trans h.pxY⟩

theorem exists_workerReady {s : State} (hb : s.status.busy = true) (hj : s.joinReady = false) :
    ∃ i, s.workerReady i = true := by
  obtain ⟨w, hw, hf⟩ : ∃ w ∈ s.workers, w.fin = false := by simpa [State.joinReady, hb] using hj
  obtain ⟨i, hi⟩ := List.getElem?_of_mem hw
  exact ⟨i, (workerReady_iff s i).2 ⟨hb, w, hi, hf⟩⟩

theorem run_of_step {M : Host.Core} {s t : M.State} (h : M.step s = .next t) (n : Nat) :
    M.run (n + 1) s = M.run n t := by rw [Host.Core.run, h]

/-- A run of a schedule that starts with an enabled agent is the step of that agent and a run of the rest. -/
theorem run_of_scheduled {s t : State} {a : Agent} {rest : List Agent} (ha : s.enabled a = true)
    (h : agentStep a { s with schedule := rest } = .next t) (n : Nat) :
    Host.Core.run Sys2Proof.core (n + 1) { s with schedule := a :: rest } = Host.Core.run Sys2Proof.core n t := by
  have he : State.enabled { s with schedule := a :: rest } a = true := by cases a <;> exact ha
  have hstep : step { s with schedule := a :: rest } = .next t := by
    rw [step, pick_of_scheduled rfl he]
    exact h
  exact run_of_step (M := Sys2Proof.core) hstep n

/-- R164, R165: some schedule takes as many WORKER steps as there is work left and then the JOIN. -/
theorem exists_schedule_to_join {s : State} (hi : s.Inv) (hb : s.status.busy = true) :
    ∃ (order : List Agent) (v : State), order.length = s.remaining + 1
      ∧ Host.Core.run Sys2Proof.core order.length { s with schedule := order } = .next v.join
      ∧ v.Inv ∧ v.joinReady = true ∧ WorkersRan s v := by
  induction hn : s.remaining generalizing s with
  | zero =>
    have hj := (joinReady_iff_remaining_eq_zero hi hb).2 hn
    have hjoin : agentStep .sequencer { s with schedule := [] } = .next ({ s with schedule := [] } : State).join := by
      have hj' : State.joinReady { s with schedule := [] } = true := hj
      simp only [agentStep, hj', if_true]
    exact ⟨[.sequencer], { s with schedule := [] }, rfl, run_of_scheduled (a := .sequencer) hj hjoin 0, hi, hj,
      .rescheduled hb [] s.draws, rfl, rfl, rfl⟩
  | succ n ih =>
    have hj : s.joinReady = false := by
      rw [← Bool.not_eq_true, joinReady_iff_remaining_eq_zero hi hb]
      omega
    obtain ⟨i, hr⟩ := exists_workerReady hb hj
    obtain ⟨t, ht⟩ := workerStep_answers hi hr
    have hran := workerStep_workersRan hr ht
    have hleft := workerStep_remaining hi hr ht
    obtain ⟨order, v, hlen, hrun, hv, hvj, hsv⟩ := ih (workerStep_keeps_inv hi hr ht) hran.busy (by omega)
    refine ⟨.worker i :: order, v, by simp [hlen], ?_, hv, hvj, hran.trans hsv⟩
    exact (run_of_scheduled (a := .worker i) hr (workerStep_withSchedule hr ht order) order.length).trans hrun

end Sys2Proof.Machine
end

section
/-! CERTIFICATE. The grayscale transform: its pixel function (R120), its START (R124, R125), its WORKER step (R123), and
the result of a whole call (R122). -/

namespace Sys2Proof.Machine

/-! The pixel function -/

theorem luminance_toNat (p : Sample) : (luminance p).toNat = p.r.toNat / 256 := by
  have := p.r.isLt
  simp [luminance, Nat.shiftRight_eq_div_pow]
  omega

theorem luminance_eq_extract (p : Sample) : luminance p = p.r.extractLsb' 8 8 :=
  BitVec.eq_of_toNat_eq (by simp [luminance])

/-- Settles O40: `luminance_toNat` three times. -/
theorem luminanceIsTheHighByteOfRed : Obligations.LuminanceIsTheHighByteOfRed := by
  refine ⟨luminance_toNat, fun p q h => by rw [luminance, luminance, h], fun p q h => ?_⟩
  rw [luminance_toNat, luminance_toNat]
  exact Nat.div_le_div_right h

/-! START -/

theorem exec_of_accepts {s : State} (h : s.Accepts) (i : Instr) : exec i s = .next (s.start i.xform i.executor) := by
  rw [exec_eq, offer_of_accepts h]

/-- R124: the one worker of a sequential call starts at the first pixel of the image. -/
theorem startedWorker_graySeq {W : Nat} {h : Half} (hW : 1 ≤ W) (hh : 1 ≤ h.toNat) :
    startedWorker .luminance W h.toNat 1 0 = ⟨0, h, 0, 0, false⟩ := by
  have hfin : Bounds.isEmpty ⟨0, W, 0, h.toNat⟩ = false := by
    rw [← Bool.not_eq_true, isEmpty_iff]
    dsimp only
    omega
  simp [startedWorker, band_one_worker, loopBounds, hfin]

/-- Settles O8: a sequential call has one worker, whose band is the whole image. -/
theorem graySeqStarts : Obligations.GraySeqStarts := by
  intro s ha hc
  obtain ⟨hn, -, -, hlen, -⟩ := hc
  have ⟨_, hw, _, hh, _⟩ := ha
  refine ⟨_, exec_of_accepts ha .graySeq, rfl, fun x _ y _ => rfl, startWorkers_length .., ?_, fun i hi h1 => ?_⟩
  · exact (start_worker s .luminance .sequential (by omega)).trans (startedWorker_graySeq hw hh)
  · exact (start_worker s .luminance .sequential (by omega)).trans (if_neg (Nat.not_lt.2 h1))

/-- Settles O9: each worker's registers hold the numbers of its band, as `startedWorker_toNat` says. -/
theorem grayParStarts : Obligations.GrayParStarts := by
  intro s ha hc
  obtain ⟨-, -, -, hlen, -⟩ := hc
  have ⟨_, hw, _⟩ := ha
  refine ⟨_, exec_of_accepts ha .grayPar, rfl, fun x _ y _ => rfl, startWorkers_length .., fun i hi => ?_⟩
  have hH : s.height.toNat ≤ 65535 := by have := s.height.isLt; omega
  obtain ⟨hs, he, hx, hy, hf⟩ := startedWorker_toNat (W := s.width.toNat) hH hi .luminance rfl
  refine ⟨startedWorker .luminance s.width.toNat s.height.toNat s.nwork.toNat i,
    (startWorkers_get _ _ _ _ _ (by omega)).trans (congrArg some (if_pos hi)), ?_, ?_, ?_, ?_⟩
  · rw [hs, he]
  · exact BitVec.eq_of_toNat_eq hx
  · exact BitVec.eq_of_toNat_eq (hy.trans hs.symm)
  · rw [hf, isEmpty_iff, hs, he]
    simp only [loopBounds]
    omega

/-! The WORKER step -/

/-- Settles O31: `workerStep_gray`, and what a write to GRAY makes of each cell. -/
theorem grayWorkerStepWritesOneCell : Obligations.GrayWorkerStepWritesOneCell := by
  intro s i w hb hx hw hf hc
  have hcx : w.cx.toNat < 65536 := w.cx.isLt
  refine ⟨_, workerStep_gray hb hx hw hf hc, rfl, fun hwf => ⟨?_, fun x hxm y _ hne => ?_⟩⟩
  · rw [← luminance_eq_extract]
    exact (grayAt_writeGray hwf hcx hcx ..).trans (if_pos ⟨rfl, rfl⟩)
  · have hx' : x < 65536 := by have := s.xmax.isLt; omega
    exact (grayAt_writeGray hwf hcx hx' ..).trans (if_neg (by omega))

/-! The whole call -/

/-- R122: a GRAY call whose workers have all finished joins with GRAY = GrayOut of the image at START, and with SRC and
RGBA as they were. -/
theorem join_gives_grayOut {s v : State} {e : Executor} (hv : v.Inv) (hs : SameCall (s.start .luminance e) v)
    (hj : v.joinReady = true) :
    (∀ x < s.xmax.toNat, ∀ y < s.ymax.toNat,
        v.join.grayAt x y = grayOut s.srcAt s.width.toNat s.height.toNat x y)
      ∧ ∀ x y, v.join.srcAt x y = s.srcAt x y ∧ v.join.rgbaAt x y = s.rgbaAt x y := by
  refine ⟨fun x hx y hy => ?_, fun x y => ⟨congrFun₂ hs.srcAt x y, hs.keepsOtherGrid.rgbaAt hs.lxform x y⟩⟩
  have hout := grayAt_of_joinReady hv hj hs.lxform (hs.xmax ▸ hx) (hs.ymax ▸ hy)
  rw [hs.srcAt, hs.wl, hs.hl] at hout
  exact hout

/-- Settles O14: START leaves the whole image to do, `exists_schedule_to_join` does it, and the JOIN gives GrayOut. -/
theorem grayCallCompletes : Obligations.GrayCallCompletes := by
  intro i s hx hi ha
  have ⟨_, hdims⟩ := ha
  have hstarted := start_keeps_inv hi ((dimsLegal_iff s).2 hdims) i.xform i.executor
  obtain ⟨order, v, hlen, hrun, hv, hj, hran⟩ := exists_schedule_to_join hstarted rfl
  rw [start_remaining hi.1, hx] at hlen
  obtain ⟨hgray, hkept⟩ := join_gives_grayOut hv (hx ▸ hran.toSameCall) hj
  refine ⟨_, exec_of_accepts ha i, order, v.join, hlen, hrun, ?_, hgray, hkept, hran.width, hran.height, hran.pxX,
    hran.pxY, hran.nwork, hran.xmax, hran.ymax⟩
  rw [State.join_status, hran.status]
  rfl

/-- Settles O16: whatever happens in between, a call ends by JOIN in a state of its own call (`call_join`). -/
theorem everyScheduleGivesGrayOut : Obligations.EveryScheduleGivesGrayOut := by
  intro i s t u hx hi hb he ht hu
  obtain ⟨v, hv, hsame, hj, rfl⟩ := call_join hi hb he ht hu
  exact join_gives_grayOut hv (hx ▸ hsame) hj

end Sys2Proof.Machine
end

section
/-! CERTIFICATE. The pixel function of the sharpen transform: exact accumulation (R136, R138), Reduce (R137), what a
cell depends on (R139, R149), and the border of the result (R140). -/

namespace Sys2Proof.Machine

/-! Accumulation -/

/-- One product of an `s8` weight and a `u16` component needs 24 bits. -/
theorem product_bounds (k : Byte) (p : Half) :
    -8388608 ≤ k.toInt * (p.toNat : Int) ∧ k.toInt * (p.toNat : Int) ≤ 8388608 := by
  have hk : |k.toInt| ≤ 128 := abs_le.2 ⟨BitVec.le_toInt k, by have := BitVec.toInt_lt (x := k); omega⟩
  have hp : |(p.toNat : Int)| ≤ 65536 := by
    rw [Nat.abs_cast]
    exact_mod_cast p.isLt.le
  have hprod : |k.toInt * (p.toNat : Int)| ≤ 128 * 65536 := by
    rw [abs_mul]
    exact mul_le_mul hk hp (abs_nonneg _) (by decide)
  exact abs_le.1 hprod

/-- The nine products add up to far less than 2^31. -/
theorem laneTotal_bounds (K : Nat → Nat → Byte) (lane : Nat → Nat → Half) :
    -75497472 ≤ laneTotal K lane ∧ laneTotal K lane ≤ 75497472 := by
  have hterm : ∀ z ∈ matrixEntries.map fun e => (K e.1 e.2).toInt * ((lane e.1 e.2).toNat : Int),
      -8388608 ≤ z ∧ z ≤ 8388608 := by
    intro z hz
    obtain ⟨e, -, rfl⟩ := List.mem_map.1 hz
    exact product_bounds ..
  have hlow := List.card_nsmul_le_sum _ _ fun z hz => (hterm z hz).1
  have hhigh := List.sum_le_card_nsmul _ _ fun z hz => (hterm z hz).2
  exact ⟨by simpa [laneTotal, matrixEntries] using hlow, by simpa [laneTotal, matrixEntries] using hhigh⟩

/-- Settles O41: the exact sum fits 32 bits, so the sum modulo 2^32 is the exact sum. -/
theorem accumulationIsExact : Obligations.AccumulationIsExact := by
  intro K lane
  have hbounds := laneTotal_bounds K lane
  rw [laneSum_eq_ofInt]
  exact BitVec.toInt_ofInt_eq_self (by decide) (by omega) (by omega)

/-! Reduce -/

theorem clamp_eq_max_min {lo hi : Int} (h : lo ≤ hi) (v : Int) : clamp v lo hi = max lo (min v hi) := by
  unfold clamp
  split <;> [skip; split] <;> omega

/-- R137: the arithmetic shift is a floor division, and the clamped value fits a byte. -/
theorem reduceSum_toNat (sum : Word) : ((reduceSum sum).toNat : Int) = clamp (sum.toInt / 256) 0 255 := by
  have hshift : (sum.sshiftRight 8).toInt = sum.toInt / 256 := by
    rw [BitVec.toInt_sshiftRight, Int.shiftRight_eq_div_pow]
    rfl
  rw [reduceSum, hshift, BitVec.toNat_ofInt, clamp_eq_max_min (by decide)]
  omega

/-- Settles O43: the three ranges of the clamped quotient in `reduceSum_toNat`. -/
theorem reduceShiftsThenClamps : Obligations.ReduceShiftsThenClamps := by
  intro sum
  have hval := reduceSum_toNat sum
  rw [clamp_eq_max_min (by decide)] at hval
  refine ⟨fun h => BitVec.eq_of_toNat_eq ?_, fun h h' => by omega, fun h => BitVec.eq_of_toNat_eq ?_⟩
  · show (reduceSum sum).toNat = 0
    omega
  · show (reduceSum sum).toNat = 255
    omega

/-! What a cell depends on -/

/-- A lane's output reads the nine entries of the lane alone. -/
theorem convolveLane_congr (K : Nat → Nat → Byte) {lane lane' : Nat → Nat → Half}
    (h : ∀ r < 3, ∀ c < 3, lane r c = lane' r c) : convolveLane K lane = convolveLane K lane' := by
  simp [convolveLane, laneSum, matrixEntries, h]

/-- One lane of the sharpen transform at `(x, y)`: five times the centre less its four neighbours, reduced (R38). -/
def crossLane (lane : Nat → Nat → Half) (x y : Nat) : Byte :=
  reduceSum (BitVec.ofInt 32 (5 * ((lane x y).toNat : Int) - (lane x (y - 1)).toNat - (lane x (y + 1)).toNat
    - (lane (x - 1) y).toNat - (lane (x + 1) y).toNat))

/-- R138: the corners have weight 0, so a sharpened cell reads the five-point cross alone. -/
theorem sharpCell_eq_crossLanes (S : Nat → Nat → Sample) (x y : Nat) :
    sharpCell S x y = ⟨crossLane (fun i j => (S i j).r) x y, crossLane (fun i j => (S i j).g) x y,
      crossLane (fun i j => (S i j).b) x y, 255⟩ := by
  simp only [sharpCell, convolve, convolveLane, laneSum_eq_ofInt, laneTotal_kernel]
  rfl

/-- Settles O44: `convolveLane_congr` for any matrix, and `sharpCell_eq_crossLanes` for the kernel. -/
theorem sharpenLanesAreIndependent : Obligations.SharpenLanesAreIndependent := by
  refine ⟨fun K nb nb' => ⟨convolveLane_congr K, convolveLane_congr K, convolveLane_congr K⟩,
    fun S S' x y _ _ hcross => ⟨?_, rfl⟩⟩
  simp only [List.forall_mem_cons] at hcross
  obtain ⟨hc, hu, hd, hl, hr, -⟩ := hcross
  simp only [sharpCell_eq_crossLanes, crossLane, hc, hu, hd, hl, hr]

/-- The weights add up to 1, so a uniform cross keeps its value, less its low byte. -/
theorem crossLane_of_uniform {lane : Nat → Nat → Half} {x y : Nat} {v : Half} (hc : lane x y = v)
    (hu : lane x (y - 1) = v) (hd : lane x (y + 1) = v) (hl : lane (x - 1) y = v) (hr : lane (x + 1) y = v) :
    crossLane lane x y = v.extractLsb' 8 8 := by
  have hv := v.isLt
  have hsum : 5 * (v.toNat : Int) - v.toNat - v.toNat - v.toNat - v.toNat = v.toNat := by omega
  have hval := reduceSum_toNat (BitVec.ofInt 32 v.toNat)
  rw [BitVec.toInt_ofInt_eq_self (by decide) (by omega) (by omega), clamp_eq_max_min (by decide)] at hval
  rw [crossLane, hc, hu, hd, hl, hr, hsum]
  refine BitVec.eq_of_toNat_eq ?_
  rw [BitVec.extractLsb'_toNat, Nat.shiftRight_eq_div_pow]
  omega

/-- Settles O45: `crossLane_of_uniform` in each of the three lanes. -/
theorem uniformCrossIsKept : Obligations.UniformCrossIsKept := by
  intro S x y p _ _ hc hu hd hl hr
  rw [sharpCell_eq_crossLanes, crossLane_of_uniform (v := p.r), crossLane_of_uniform (v := p.g),
    crossLane_of_uniform (v := p.b)] <;> simp only [hc, hu, hd, hl, hr]

/-- Settles O46: within the image the border is what lies outside the interior. -/
theorem sharpenBorderIsZero : Obligations.SharpenBorderIsZero := by
  intro S W H x y hx hy
  refine ⟨fun hborder => if_neg (by omega), fun hinner => ?_⟩
  have hcell : sharpOut S W H x y = sharpCell S x y := if_pos (by omega)
  exact ⟨hcell, hcell ▸ rfl⟩

end Sys2Proof.Machine
end

section
/-! CERTIFICATE. The sharpen transform on the engine: the rows of its workers (R145), its START (R143, R144), its WORKER
step (R142), and the result of a whole call (R141). -/

namespace Sys2Proof.Machine

/-! The rows of the workers -/

/-- R145: clipping a band keeps its interior rows. -/
theorem mem_clipped_iff {H bs be y : Nat} :
    (max bs 1 ≤ y ∧ y < min be (H - 1)) ↔ (1 ≤ y ∧ y + 1 < H) ∧ bs ≤ y ∧ y < be := by omega

/-- Settles O39: the bands cover the rows and are disjoint, and clipping keeps the interior rows of each. -/
theorem clippedBandsTileTheInterior : Obligations.ClippedBandsTileTheInterior := by
  intro H N y _ hN
  refine ⟨?_, fun i hi j hj hsi hei hsj hej => ?_⟩
  · simp only [mem_clipped_iff]
    constructor
    · intro hy
      obtain ⟨i, hi, hband⟩ := (exists_band_iff hN y).2 (show y < H by omega)
      exact ⟨i, hi, hy, hband⟩
    · rintro ⟨i, -, hy, -⟩
      exact hy
  · exact eq_of_mem_band hi hj (mem_clipped_iff.1 ⟨hsi, hei⟩).2 (mem_clipped_iff.1 ⟨hsj, hej⟩).2

/-! START -/

/-- R143: the one worker of a sequential call starts at the first interior pixel, finished if there is none. -/
theorem startedWorker_sharpSeq (W : Nat) (h : Half) :
    startedWorker .convolution W h.toNat 1 0 = ⟨0, h, 1, 1, decide (W < 3 ∨ h.toNat < 3)⟩ := by
  have hfin : Bounds.isEmpty ⟨1, W - 1, 1, h.toNat - 1⟩ = decide (W < 3 ∨ h.toNat < 3) := by
    rw [Bool.eq_iff_iff, isEmpty_iff, decide_eq_true_iff]
    dsimp only
    omega
  simp [startedWorker, band_one_worker, loopBounds, hfin]

/-- Settles O10: a sequential call has one worker, whose band is the whole image. -/
theorem sharpSeqStarts : Obligations.SharpSeqStarts := by
  intro s ha hc
  obtain ⟨hn, -, -, hlen, -⟩ := hc
  refine ⟨_, exec_of_accepts ha .sharpSeq, rfl, fun x _ y _ => rfl, startWorkers_length .., ?_, fun i hi h1 => ?_⟩
  · exact (start_worker s .convolution .sequential (by omega)).trans (startedWorker_sharpSeq ..)
  · exact (start_worker s .convolution .sequential (by omega)).trans (if_neg (Nat.not_lt.2 h1))

/-- Settles O11: each worker's registers hold the numbers of its band, as `startedWorker_toNat` says. -/
theorem sharpParStarts : Obligations.SharpParStarts := by
  intro s ha hc
  obtain ⟨-, -, -, hlen, -⟩ := hc
  refine ⟨_, exec_of_accepts ha .sharpPar, rfl, fun x _ y _ => rfl, startWorkers_length .., fun i hi => ?_⟩
  have hH : s.height.toNat ≤ 65535 := by have := s.height.isLt; omega
  obtain ⟨hs, he, hx, hy, hf⟩ := startedWorker_toNat (W := s.width.toNat) hH hi .convolution rfl
  refine ⟨startedWorker .convolution s.width.toNat s.height.toNat s.nwork.toNat i,
    (startWorkers_get _ _ _ _ _ (by omega)).trans (congrArg some (if_pos hi)), ?_, ?_, ?_, ?_⟩
  · rw [hs, he]
  · exact BitVec.eq_of_toNat_eq hx
  · rw [hy, hs]
    rfl
  · rw [hf, isEmpty_iff, hs, he]
    simp only [loopBounds]
    omega

/-! The WORKER step -/

/-- Settles O32: `workerStep_sharp`, and what a write to RGBA makes of each cell. -/
theorem sharpWorkerStepWritesOneCell : Obligations.SharpWorkerStepWritesOneCell := by
  intro s i w hb hx hw hf hc
  have hcx : w.cx.toNat < 65536 := w.cx.isLt
  refine ⟨_, workerStep_sharp hb hx hw hf hc, rfl, fun hwf => ⟨⟨_, rfl, ?_⟩, fun x hxm y _ hne => ?_⟩⟩
  · exact (rgbaAt_writeRgba hwf hcx hcx ..).trans (if_pos ⟨rfl, rfl⟩)
  · have hx' : x < 65536 := by have := s.xmax.isLt; omega
    exact (rgbaAt_writeRgba hwf hcx hx' ..).trans (if_neg (by omega))

/-! The whole call -/

/-- R141: a SHARP call whose workers have all finished joins with RGBA = SharpOut of the image at START, and with SRC
and GRAY as they were. -/
theorem join_gives_sharpOut {s v : State} {e : Executor} (hv : v.Inv) (hs : SameCall (s.start .convolution e) v)
    (hj : v.joinReady = true) :
    (∀ x < s.xmax.toNat, ∀ y < s.ymax.toNat,
        v.join.rgbaAt x y = sharpOut s.srcAt s.width.toNat s.height.toNat x y)
      ∧ ∀ x y, v.join.srcAt x y = s.srcAt x y ∧ v.join.grayAt x y = s.grayAt x y := by
  refine ⟨fun x hx y hy => ?_, fun x y => ⟨congrFun₂ hs.srcAt x y, hs.keepsOtherGrid.grayAt hs.lxform x y⟩⟩
  have hout := rgbaAt_of_joinReady hv hj hs.lxform (hs.xmax ▸ hx) (hs.ymax ▸ hy)
  rw [hs.srcAt, hs.wl, hs.hl] at hout
  exact hout

/-- Settles O15: START leaves the interior to do, `exists_schedule_to_join` does it, and the JOIN gives SharpOut. -/
theorem sharpCallCompletes : Obligations.SharpCallCompletes := by
  intro i s hx hi ha
  have ⟨_, hdims⟩ := ha
  have hstarted := start_keeps_inv hi ((dimsLegal_iff s).2 hdims) i.xform i.executor
  obtain ⟨order, v, hlen, hrun, hv, hj, hran⟩ := exists_schedule_to_join hstarted rfl
  rw [start_remaining hi.1, hx] at hlen
  obtain ⟨hrgba, hkept⟩ := join_gives_sharpOut hv (hx ▸ hran.toSameCall) hj
  refine ⟨_, exec_of_accepts ha i, order, v.join, hlen, hrun, ?_, hrgba, hkept, hran.width, hran.height, hran.pxX,
    hran.pxY, hran.nwork, hran.xmax, hran.ymax⟩
  rw [State.join_status, hran.status]
  rfl

/-- Settles O17: whatever happens in between, a call ends by JOIN in a state of its own call (`call_join`). -/
theorem everyScheduleGivesSharpOut : Obligations.EveryScheduleGivesSharpOut := by
  intro i s t u hx hi hb he ht hu
  obtain ⟨v, hv, hsame, hj, rfl⟩ := call_join hi hb he ht hu
  exact join_gives_sharpOut hv (hx ▸ hsame) hj

end Sys2Proof.Machine
end

section
/-! SUPPORT. What one step of a running call does to the work left (R164), and what it leaves enabled (R207). -/

namespace Sys2Proof.Machine

/-- The work left is read off the workers' registers and the call's latches. -/
theorem SameCall.remaining {s t : State} (h : SameCall s t) (hw : t.workers = s.workers) :
    t.remaining = s.remaining := by
  simp only [State.remaining, State.callWorkers, State.boundsOf, hw, h.neff, h.lxform, h.wl, h.hl]

/-- During a call the host leaves the workers' registers. -/
theorem hostEffect_workers {s t : State} (hb : s.status.busy = true) (h : HostEffect s t) : t.workers = s.workers := by
  cases h with
  | quiet => rfl
  | flagged => rfl
  | config => rfl
  | source => rfl
  | started hb' => simp [hb] at hb'

/-- R164, R165: a step of a running call processes one pixel, or leaves the workers as they are, or ends the call. -/
theorem call_step_cases {s t : State} (hi : s.Inv) (hb : s.status.busy = true) (h : step s = .next t) :
    (∃ i, s.mover = some (.worker i) ∧ t.status.busy = true ∧ t.remaining + 1 = s.remaining)
      ∨ ((s.mover = none ∨ s.mover = some .host) ∧ t.status.busy = true ∧ t.workers = s.workers
        ∧ t.remaining = s.remaining)
      ∨ ((s.mover = some .sequencer ∨ s.mover = some .resetLine) ∧ t.status.busy = false) := by
  rcases step_by_agent h with ⟨hm, rfl⟩ | ⟨order, n, u, hu, hagent⟩
  · exact .inr (.inl ⟨.inl hm, hb, rfl, rfl⟩)
  · have hub : u.status.busy = true := hu ▸ hb
    have hworkers : u.workers = s.workers := hu ▸ rfl
    have hleft : u.remaining = s.remaining := hu ▸ rfl
    rcases hagent with ⟨hm, -, he⟩ | ⟨hm, -, rfl⟩ | ⟨i, hm, hr, hw⟩ | ⟨hm, rfl⟩
    · have hsame := hostEffect_sameCall hub he
      have hkept := hostEffect_workers hub he
      exact .inr (.inl ⟨.inr hm, hsame.busy, hkept.trans hworkers, (hsame.remaining hkept).trans hleft⟩)
    · exact .inr (.inr ⟨.inl hm, rfl⟩)
    · have hru : u.workerReady i = true := hu ▸ hr
      have hiu : u.Inv := hu ▸ hi
      exact .inl ⟨i, hm, (workerStep_sameCall hru hw).busy, (workerStep_remaining hiu hru hw).trans hleft⟩
    · exact .inr (.inr ⟨.inr hm, rfl⟩)

/-- R164, R165: what enables a worker or the sequencer is BUSY and the workers' registers. -/
theorem enabled_engine_congr {s t : State} {a : Agent} (ha : a.isEngine = true)
    (hb : t.status.busy = s.status.busy) (hw : t.workers = s.workers) : t.enabled a = s.enabled a := by
  cases a with
  | host => cases ha
  | sequencer => simp only [State.enabled, State.joinReady, hb, hw]
  | worker i => simp only [State.enabled, State.workerReady, hb, hw]
  | resetLine => cases ha

/-- During a call some worker has a step, or all have finished and JOIN is enabled. -/
theorem exists_enabled_engine {s : State} (hb : s.status.busy = true) :
    ∃ a : Agent, a.isEngine = true ∧ s.enabled a = true := by
  cases hj : s.joinReady with
  | true => exact ⟨.sequencer, rfl, hj⟩
  | false =>
    obtain ⟨i, hr⟩ := exists_workerReady hb hj
    exact ⟨.worker i, rfl, hr⟩

end Sys2Proof.Machine
end

section
/-! CERTIFICATE. The work of a call: all of it at START (R208), one pixel a WORKER step (R164), JOIN when none is left
(R165), and in a fair execution an end (R207). -/

namespace Sys2Proof.Machine

/-! Termination (R207) -/

/-- An execution keeps the invariant. -/
theorem Execution.inv {σ : Nat → State} (h : Execution σ) (hi : (σ 0).Inv) (n : Nat) : (σ n).Inv := by
  induction n with
  | zero => exact hi
  | succ n ih => exact step_keeps_inv ih (h n)

/-- In a call that never ends, the workers stay as they are for as long as the work left does not fall. -/
theorem Execution.workers_stay {σ : Nat → State} (h : Execution σ) (hi : (σ 0).Inv)
    (hb : ∀ n, (σ n).status.busy = true) {n : Nat} (hleft : ∀ m, (σ n).remaining ≤ (σ m).remaining) {m : Nat}
    (hm : n ≤ m) : (σ m).workers = (σ n).workers ∧ (σ m).remaining = (σ n).remaining := by
  induction m, hm using Nat.le_induction with
  | base => exact ⟨rfl, rfl⟩
  | succ m _ ih =>
    obtain ⟨hworkers, hsame⟩ := ih
    rcases call_step_cases (h.inv hi m) (hb m) (h m) with ⟨i, -, -, hless⟩ | ⟨-, -, hw, hr⟩ | ⟨-, hend⟩
    · have := hleft (m + 1)
      omega
    · exact ⟨hw.trans hworkers, hr.trans hsame⟩
    · cases (hb (m + 1)).symm.trans hend

/-- Fairness makes the work left fall again and again in a call that never ends: while it does not, the workers stay,
so an agent of the engine stays enabled and must move. -/
theorem WeaklyFair.exists_remaining_lt {σ : Nat → State} (hfair : WeaklyFair σ) (h : Execution σ) (hi : (σ 0).Inv)
    (hb : ∀ n, (σ n).status.busy = true) (n : Nat) : ∃ m, (σ m).remaining < (σ n).remaining := by
  by_contra hno
  have hleft : ∀ m, (σ n).remaining ≤ (σ m).remaining := fun m => Nat.le_of_not_lt fun hlt => hno ⟨m, hlt⟩
  obtain ⟨a, ha, hen⟩ := exists_enabled_engine (hb n)
  obtain ⟨m, hnm, hmoves⟩ := hfair a ha n fun m hnm => by
    rw [enabled_engine_congr ha ((hb m).trans (hb n).symm) (h.workers_stay hi hb hleft hnm).1, hen]
  have hm := (h.workers_stay hi hb hleft hnm).2
  rcases call_step_cases (h.inv hi m) (hb m) (h m) with ⟨i, -, -, hless⟩ | ⟨hidle | hhost, -⟩ | ⟨-, hend⟩
  · have := hleft (m + 1)
    omega
  · cases hmoves.symm.trans hidle
  · cases hmoves.symm.trans hhost
    cases ha
  · cases (hb (m + 1)).symm.trans hend

/-- Settles O30: the work left would fall below its least value in the execution. -/
theorem fairCallsEnd : Obligations.FairCallsEnd := by
  intro σ h hfair hi _
  by_contra hno
  have hb : ∀ n, (σ n).status.busy = true := fun n => (Bool.not_eq_false _).mp (not_exists.1 hno n)
  obtain ⟨m, hm⟩ := hfair.exists_remaining_lt h hi hb (Function.argmin fun n => (σ n).remaining)
  exact Function.not_lt_argmin (fun n => (σ n).remaining) m hm

/-! The steps of a call -/

/-- Settles O28: an accepted command is a START, and `start_remaining` counts its pixels. -/
theorem workLeftAtStart : Obligations.WorkLeftAtStart :=
  fun i _ ha hc => ⟨_, exec_of_accepts ha i, start_remaining hc i.xform i.executor⟩

/-- Settles O29: of the cases of `call_step_cases` each mover has one. -/
theorem everyWorkerStepDoesOnePixel : Obligations.EveryWorkerStepDoesOnePixel := by
  intro s t hi hb h
  rcases call_step_cases hi hb h with ⟨i, hm, hb', hless⟩ | ⟨hm, hb', -, hleft⟩ | ⟨hm, -⟩
  · exact ⟨fun _ _ => ⟨hb', hless⟩, by simp [hm]⟩
  · exact ⟨by rcases hm with hm | hm <;> simp [hm], fun _ => ⟨hb', hleft⟩⟩
  · constructor <;> rcases hm with hm | hm <;> simp [hm]

/-- R165: during a call JOIN is enabled exactly when every worker has finished. -/
theorem joinReady_iff {s : State} (hlen : s.workers.length = s.nwork.toNat) (hb : s.status.busy = true) :
    s.joinReady = true ↔ ∀ i < s.nwork.toNat, (s.worker i).fin = true := by
  simp only [State.joinReady, hb, Bool.true_and, List.all_eq_true, List.forall_mem_iff_getElem, ← hlen]
  refine forall₂_congr fun i hi => ?_
  rw [worker_of_getElem? (List.getElem?_eq_getElem hi)]

/-- Settles O35: `joinReady_iff` in both directions. -/
theorem joinClearsBusyAndSetsDone : Obligations.JoinClearsBusyAndSetsDone := by
  refine fun s hlen hb => ⟨fun hfin => ?_, fun ⟨i, hi, hfin⟩ => ?_⟩
  · have hj := (joinReady_iff hlen hb).2 hfin
    exact ⟨hj, by rw [agentStep, if_pos hj]; rfl⟩
  · show s.joinReady = false
    rw [← Bool.not_eq_true, joinReady_iff hlen hb]
    exact fun hall => by simp [hall i hi] at hfin

end Sys2Proof.Machine
end

section
/-! CERTIFICATE. The host port: a command written to CMD (R162), the configuration and source registers (R166 - R168),
and reserved or forbidden indices (R172). -/

namespace Sys2Proof.Machine

/-! The source window (R167, R168) -/

theorem srcAt_writeSrc {s : State} (h : s.src.wf = true) {x x' : Nat} (hx : x < 65536) (hx' : x' < 65536)
    (y y' : Nat) (p : Sample) :
    (s.writeSrc x y p).srcAt x' y' = if x' = x ∧ y' = y then p else s.srcAt x' y' := by
  simp only [State.srcAt, State.writeSrc_src, State.writeSrc_epoch, Memory.get_set h, cellKey_inj hx' hx]

theorem writeSource_of_busy {s : State} (hb : s.status.busy = true) (put : Sample → Sample) :
    writeSource put s = s.refuse .lock := by rw [writeSource, if_pos hb]

theorem writeSource_of_inRange {s : State} (hb : s.status.busy = false) (hr : s.inRange = true)
    (put : Sample → Sample) :
    writeSource put s = s.writeSrc s.pxX.toNat s.pxY.toNat (put (s.srcAt s.pxX.toNat s.pxY.toNat)) := by
  rw [writeSource, if_neg (by simp [hb]), if_pos hr]

theorem writeSource_of_not_inRange {s : State} (hb : s.status.busy = false) (hr : ¬s.inRange = true)
    (put : Sample → Sample) : writeSource put s = s.refuse .range := by
  rw [writeSource, if_neg (by simp [hb]), if_neg hr]

theorem hostWrite_srcLo (v : Word) (s : State) :
    hostWrite 7 v s = .next (writeSource (fun p => p.withLo v) s) := rfl

theorem hostWrite_srcHi (v : Word) (s : State) :
    hostWrite 8 v s = .next (writeSource (fun p => p.withHi v) s) := rfl

/-- What holds of both source registers holds of each index of the source window. -/
theorem forall_srcWindow {P : BitVec 5 → Prop} : (∀ idx ∈ [7#5, 8#5], P idx) ↔ P 7 ∧ P 8 := by simp

/-- Settles O51: in range the write is a store to the selected cell, and `srcAt_writeSrc` reads every cell after it. -/
theorem sourceWindowWrites : Obligations.SourceWindowWrites := by
  intro v s hwf
  simp only [← inRange_iff, forall_srcWindow, hostWrite_srcLo, hostWrite_srcHi]
  refine ⟨fun hb hr => ?_, fun hb => ?_, fun hb hr => ?_⟩
  · have hpx : s.pxX.toNat < 65536 := s.pxX.isLt
    simp only [writeSource_of_inRange hb hr]
    refine ⟨_, _, rfl, rfl, rfl, rfl, ?_, ?_, fun x hx y _ hne => ?_⟩
    · exact (srcAt_writeSrc hwf hpx hpx ..).trans (if_pos ⟨rfl, rfl⟩)
    · exact (srcAt_writeSrc hwf hpx hpx ..).trans (if_pos ⟨rfl, rfl⟩)
    · have hx' : x < 65536 := by have := s.xmax.isLt; omega
      have hother : ¬(x = s.pxX.toNat ∧ y = s.pxY.toNat) := not_and_or.2 hne
      exact ⟨(srcAt_writeSrc hwf hpx hx' ..).trans (if_neg hother),
        (srcAt_writeSrc hwf hpx hx' ..).trans (if_neg hother)⟩
  · simp only [writeSource_of_busy hb]
    exact ⟨rfl, rfl⟩
  · simp only [writeSource_of_not_inRange hb hr]
    exact ⟨rfl, rfl⟩

theorem readSource_of_inRange {s : State} (hr : s.inRange = true) (view : Sample → Word) :
    readSource view s = (view (s.srcAt s.pxX.toNat s.pxY.toNat), s) := by rw [readSource, if_pos hr]

theorem readSource_of_not_inRange {s : State} (hr : ¬s.inRange = true) (view : Sample → Word) :
    readSource view s = s.refuseRead .range := by rw [readSource, if_neg hr]

theorem hostRead_srcLo (s : State) : hostRead 7 s = readSource Sample.loWord s := rfl

theorem hostRead_srcHi (s : State) : hostRead 8 s = readSource Sample.hiWord s := rfl

/-- Settles O50: both source registers are a read of the selected cell, checked for range alone. -/
theorem sourceWindowReads : Obligations.SourceWindowReads := by
  intro s
  simp only [← inRange_iff, forall_srcWindow, hostRead_srcLo, hostRead_srcHi]
  refine ⟨fun hr => ?_, fun hr => ?_⟩
  · simp only [readSource_of_inRange hr]
    exact ⟨rfl, rfl⟩
  · simp only [readSource_of_not_inRange hr]
    exact ⟨rfl, rfl⟩

/-! The other registers -/

theorem hostWrite_width (v : Word) (s : State) : hostWrite 2 v s = .next (writeWidth v s) := rfl

theorem hostWrite_height (v : Word) (s : State) : hostWrite 3 v s = .next (writeHeight v s) := rfl

/-- Settles O49: the lock is the only check either write makes. -/
theorem configurationWrites : Obligations.ConfigurationWrites := by
  intro v s
  rw [hostWrite_width, hostWrite_height]
  refine ⟨fun hb => ?_, fun hb => ?_⟩
  · have hidle : ¬s.status.busy = true := Bool.eq_false_iff.1 hb
    exact ⟨congrArg _ (if_neg hidle), congrArg _ (if_neg hidle)⟩
  · exact ⟨congrArg _ (if_pos hb), congrArg _ (if_pos hb)⟩

/-- R172: a read of a reserved index is refused with ERR_ADDR and answers 0. -/
theorem hostRead_reserved {idx : BitVec 5} (h : (12 ≤ idx.toNat ∧ idx.toNat ≤ 15) ∨ 25 ≤ idx.toNat) (s : State) :
    hostRead idx s = (0, s.refuse .addr) := by
  obtain ⟨n, hn⟩ : ∃ n, idx.toNat = n + 12 := ⟨idx.toNat - 12, by omega⟩
  rw [hostRead, hn]
  exact if_neg (by omega)

/-- R172: a write to a read-only or reserved index is refused with ERR_ADDR. -/
theorem hostWrite_forbidden {idx : BitVec 5} (h : idx.toNat ∈ [1, 4, 9, 10, 11] ∨ 12 ≤ idx.toNat) (v : Word)
    (s : State) : hostWrite idx v s = .next (s.refuse .addr) := by
  rw [hostWrite]
  rcases h with h | h
  · simp only [List.mem_cons, List.not_mem_nil, or_false] at h
    rcases h with h | h | h | h | h <;> simp only [h]
  · obtain ⟨n, hn⟩ : ∃ n, idx.toNat = n + 12 := ⟨idx.toNat - 12, by omega⟩
    simp only [hn]

/-- Settles O54: `hostRead_reserved` and `hostWrite_forbidden`; CMD has its own arm. -/
theorem reservedAndForbiddenAccess : Obligations.ReservedAndForbiddenAccess :=
  fun s => ⟨fun _ h => hostRead_reserved h s, fun _ v h => hostWrite_forbidden h v s, rfl⟩

/-! CMD (R162) -/

/-- The host's step, when its next operation writes a command's word to CMD, is `exec` of the command. -/
theorem hostStep_of_command {s : State} {w : Word} {rest : List HostOp} {i : Instr}
    (hp : s.program = .write 0 w :: rest) (hi : decode w = .ok i) : hostStep s = exec i { s with program := rest } := by
  obtain rfl := encode_of_decode hi
  rw [hostStep, hp]
  exact hostWrite_encode i _

/-- Settles O4: the choice of the host leaves its program, whose next operation is the command's word. -/
theorem stepRunsTheDecodedCommand : Obligations.StepRunsTheDecodedCommand := by
  intro s t w rest i hpick hp hi _
  obtain ⟨-, order, n, rfl⟩ := pick_spec hpick
  refine ⟨?_, rfl⟩
  rw [step, hpick]
  exact hostStep_of_command hp hi

end Sys2Proof.Machine
end

section
/-! CERTIFICATE. The error flags: an illegal word (R183), a command during a call (R182), dimensions out of range
(R184), and no flag cleared but by reset (R181). -/

namespace Sys2Proof.Machine

/-! Refused commands (R182 - R184) -/

theorem hostWrite_cmd (w : Word) (s : State) : hostWrite 0 w s = writeCommand w s := rfl

theorem writeCommand_of_illegal {w : Word} (h : w.extractLsb' 2 30 ≠ 0) (s : State) :
    writeCommand w s = .next s.offerIllegal := by rw [writeCommand, decode_of_zeroField_ne h]

theorem offerIllegal_of_idle {s : State} (hb : s.status.busy = false) : s.offerIllegal = s.refuse .op := by
  rw [State.offerIllegal, if_neg (by simp [hb])]

/-- Settles O5: an illegal word reaches no command, and its offer while idle is refused with ERR_OP. -/
theorem illegalWordRaisesErrOp : Obligations.IllegalWordRaisesErrOp := by
  intro w s hb hw
  rw [hostWrite_cmd, writeCommand_of_illegal hw, offerIllegal_of_idle hb]
  rfl

theorem exec_of_busy {s : State} (hb : s.status.busy = true) (i : Instr) : exec i s = .next (s.refuse .busy) := by
  rw [exec_eq, State.offer, if_pos hb]

/-- R182: the check for a running call comes first, whether the word is legal or not. -/
theorem writeCommand_of_busy {s : State} (hb : s.status.busy = true) (w : Word) :
    writeCommand w s = .next (s.refuse .busy) := by
  rw [writeCommand]
  cases decode w with
  | ok i => exact exec_of_busy hb i
  | error _ => exact congrArg _ (if_pos hb)

/-- Settles O6: the word and the command are refused alike. -/
theorem commandDuringACallRaisesErrBusy : Obligations.CommandDuringACallRaisesErrBusy :=
  fun _ hb => ⟨writeCommand_of_busy hb, exec_of_busy hb⟩

/-- R184: the four ways in which the dimensions are out of range. -/
theorem dimsLegal_eq_false_iff (s : State) :
    s.dimsLegal = false ↔ s.width = 0 ∨ s.xmax < s.width ∨ s.height = 0 ∨ s.ymax < s.height := by
  simp only [← Bool.not_eq_true, dimsLegal_iff, BitVec.lt_def, ← BitVec.toNat_inj, BitVec.ofNat_eq_ofNat,
    BitVec.toNat_zero]
  omega

theorem exec_of_dims_illegal {s : State} (hb : s.status.busy = false) (hd : s.dimsLegal = false) (i : Instr) :
    exec i s = .next (s.refuse .dim) := by
  rw [exec_eq, State.offer, if_neg (by simp [hb]), if_neg (by simp [hd])]

/-- Settles O7: while idle the check of the dimensions alone decides between ERR_DIM and START, which latches them. -/
theorem badDimensionsRaiseErrDim : Obligations.BadDimensionsRaiseErrDim := by
  refine ⟨fun i s hb hdims => ?_, fun i s t hb he ht => ?_, fun i s ha => ?_⟩
  · have hrefused := exec_of_dims_illegal hb ((dimsLegal_eq_false_iff s).2 hdims) i
    exact ⟨hrefused, (hostWrite_encode i s).trans hrefused⟩
  · obtain ⟨hd, rfl⟩ := exec_started hb he ht
    exact (dimsLegal_iff s).1 hd
  · have hstarted := exec_of_accepts ha i
    exact ⟨_, hstarted, (hostWrite_encode i s).trans hstarted, rfl⟩

/-! The flags along a step (R181) -/

/-- The host raises flags and clears none. -/
theorem hostEffect_keeps_flag {s t : State} (h : HostEffect s t) {e : ErrFlag} (he : s.status.has e = true) :
    t.status.has e = true := by
  cases h with
  | quiet => exact he
  | flagged f => exact (has_raise f e s.status).2 (.inr he)
  | config => exact he
  | source => exact he
  | started => exact (Status.has_started e s.status).trans he

/-- Settles O25: the host clears no flag, a WORKER step leaves STATUS, and JOIN writes BUSY and DONE alone. -/
theorem errorFlagsAreSticky : Obligations.ErrorFlagsAreSticky := by
  intro s t e h hm he
  rcases step_by_agent h with ⟨-, rfl⟩ | ⟨order, n, u, hu, hagent⟩
  · exact he
  · have hue : u.status.has e = true := hu ▸ he
    rcases hagent with ⟨-, -, heff⟩ | ⟨-, -, rfl⟩ | ⟨i, -, hr, hw⟩ | ⟨hm', -⟩
    · exact hostEffect_keeps_flag heff hue
    · exact (Status.has_joined e u.status).trans hue
    · rwa [workerStep_status (hu ▸ hr) hw]
    · exact absurd hm' hm

end Sys2Proof.Machine
end

section
/-! CERTIFICATE. A reset of the running engine (R200, R201): the registers at their reset values, nothing of a call left,
every cell unspecified anew, the outside world as it was. -/

namespace Sys2Proof.Machine

/-! What a reset does to the state -/

@[simp] theorem State.resetEngine_status (s : State) : s.resetEngine.status = Status.reset := rfl
@[simp] theorem State.resetEngine_program (s : State) : s.resetEngine.program = s.program := rfl
@[simp] theorem State.resetEngine_replies (s : State) : s.resetEngine.replies = s.replies := rfl
@[simp] theorem State.resetEngine_schedule (s : State) : s.resetEngine.schedule = s.schedule := rfl
@[simp] theorem State.resetEngine_draws (s : State) : s.resetEngine.draws = s.draws := rfl
@[simp] theorem State.resetEngine_resetPulses (s : State) : s.resetEngine.resetPulses = s.resetPulses := rfl
@[simp] theorem State.resetEngine_epoch (s : State) : s.resetEngine.epoch = s.epoch + 1 := rfl

/-- R201: whatever was written to the source grid, its cells hold the content of the new reset. -/
@[simp] theorem srcAt_resetEngine (s : State) (x y : Nat) :
    s.resetEngine.srcAt x y = Config.resetSample (s.epoch + 1) (cellKey x y) := Memory.get_unwritten _ _

/-- R201: whatever was written to the gray grid, its cells hold the content of the new reset. -/
@[simp] theorem grayAt_resetEngine (s : State) (x y : Nat) :
    s.resetEngine.grayAt x y = Config.resetGray (s.epoch + 1) (cellKey x y) := Memory.get_unwritten _ _

/-- R201: whatever was written to the RGBA grid, its cells hold the content of the new reset. -/
@[simp] theorem rgbaAt_resetEngine (s : State) (x y : Nat) :
    s.resetEngine.rgbaAt x y = Config.resetPixel (s.epoch + 1) (cellKey x y) := Memory.get_unwritten _ _

/-! No call is left (R201) -/

theorem workerReady_of_idle {s : State} (hb : s.status.busy = false) (i : Nat) : s.workerReady i = false := by
  rw [State.workerReady, hb, Bool.false_and]

theorem joinReady_of_idle {s : State} (hb : s.status.busy = false) : s.joinReady = false := by
  rw [State.joinReady, hb, Bool.false_and]

/-! The registers (R200) -/

/-- R45, R200: the plain registers read after a reset of the running engine as after any other reset, by index. -/
theorem hostRead_resetEngine {idx : BitVec 5} (h : idx.toNat < 7 ∨ idx = 11) (s : State) (k : Nat) :
    (hostRead idx s.resetEngine).1 = (hostRead idx (State.atReset s.nwork s.xmax s.ymax k)).1 := by
  rcases h with h | rfl
  · rw [hostRead, hostRead]
    interval_cases idx.toNat <;> rfl
  · rfl

/-- Settles O36: the reset line uses up one pulse and resets the engine. -/
theorem resetAbandonsTheCall : Obligations.ResetAbandonsTheCall := by
  intro s hpulse
  have hidle : Status.reset.busy = false := rfl
  exact ⟨_, rfl, fun _ hidx => hostRead_resetEngine hidx _ 0, State.resetEngine_status _,
    workerReady_of_idle hidle, joinReady_of_idle hidle, State.resetEngine_program _, State.resetEngine_replies _,
    State.resetEngine_schedule _, State.resetEngine_draws _, Nat.sub_add_cancel hpulse, State.resetEngine_epoch _,
    fun x y => ⟨srcAt_resetEngine _ x y, grayAt_resetEngine _ x y, rgbaAt_resetEngine _ x y⟩⟩

end Sys2Proof.Machine
end

section
/-! CERTIFICATE. The edges of a call: the invariant at reset (R45), a worker's step and cursor in the midst of a call
(R62), and a sharpen command that has no pixel to process (R146). -/

namespace Sys2Proof.Machine

/-! Reset -/

theorem atReset_controlInv {n x y : Half} (hn : n ≠ 0) (hx : x ≠ 0) (hy : y ≠ 0) (k : Nat) :
    (State.atReset n x y k).ControlInv := by
  have hpos : ∀ {v : Half}, v ≠ 0 → 1 ≤ v.toNat := fun hv => Nat.pos_of_ne_zero (BitVec.toNat_ne.1 hv)
  exact ⟨hpos hn, hpos hx, hpos hy, List.length_replicate, fun h => nomatch h.1⟩

/-- R45: the first reset leaves the grids as a reset of the running engine does. -/
theorem atReset_inv {n x y : Half} (hn : n ≠ 0) (hx : x ≠ 0) (hy : y ≠ 0) (k : Nat) :
    (State.atReset n x y k).Inv := by
  have hc := atReset_controlInv hn hx hy k
  obtain ⟨-, hgrids, -⟩ := resetEngine_keeps_inv hc
  exact ⟨hc, hgrids, nofun⟩

/-- R6: a parameter of the range 1 .. 65535 is not 0. -/
theorem ofNat_succ_ne_zero (n : Fin 65535) : BitVec.ofNat 16 (n.val + 1) ≠ 0 := by
  have := n.isLt
  rw [BitVec.toNat_ne, BitVec.toNat_ofNat, Nat.mod_eq_of_lt (by omega)]
  exact Nat.succ_ne_zero _

/-- Settles O19: no call runs after reset, and the open parameters are not 0 either. -/
theorem resetMeetsTheMachineInvariant : Obligations.ResetMeetsTheMachineInvariant :=
  ⟨atReset_inv (ofNat_succ_ne_zero _) (ofNat_succ_ne_zero _) (ofNat_succ_ne_zero _) 0,
    fun _ _ _ k hn hx hy => atReset_inv hn hx hy k⟩

/-! A worker with a step to take -/

/-- The interior of an image lies inside the image. -/
theorem inTarget_inside {x : Xform} {W H px py : Nat} (h : inTarget x W H px py) : px < W ∧ py < H := by
  cases x <;> simp only [inTarget] at h <;> omega

/-- Settles O33: `workerStep_answers`, and the cursor stands in the target, which for SHARP is the interior. -/
theorem unfinishedWorkersAccessTheImageOnly : Obligations.UnfinishedWorkersAccessTheImageOnly := by
  intro s i hi hr
  obtain ⟨hb, w, hw, hf⟩ := (workerReady_iff s i).1 hr
  have ⟨hc, _, hcall⟩ := hi
  obtain ⟨-, hworkers, -⟩ := hcall hb
  have hin := unfinished_worker_inTarget hc hworkers hw hf
  obtain ⟨hx, hy⟩ := inTarget_inside hin
  rw [worker_of_getElem? hw]
  exact ⟨workerStep_answers hi hr, hx, hy, fun hxf => by rwa [hxf] at hin⟩

/-! A sharpen command without an interior -/

theorem start_controlInv {s : State} (hc : s.ControlInv) (x : Xform) (e : Executor) : (s.start x e).ControlInv := by
  obtain ⟨hn, hx, hy, hlen, -⟩ := hc
  exact ⟨hn, hx, hy, (startWorkers_length ..).trans hlen, fun h => nomatch h.2⟩

/-- R146: no worker of a sharpen command on an image without an interior starts unfinished, for its cursor would be an
interior pixel. -/
theorem start_workerReady_of_no_interior {s : State} (hc : s.ControlInv)
    (h : s.width.toNat < 3 ∨ s.height.toNat < 3) (e : Executor) (j : Nat) :
    (s.start .convolution e).workerReady j = false := by
  rw [← Bool.not_eq_true, workerReady_iff]
  rintro ⟨-, w, hw, hf⟩
  obtain ⟨hx, hx', hy, hy'⟩ :=
    unfinished_worker_inTarget (start_controlInv hc .convolution e) (start_workersInv hc .convolution e) hw hf
  simp only [State.start_wl, State.start_hl] at hx' hy'
  omega

theorem joinReady_of_no_workerReady {s : State} (hb : s.status.busy = true) (h : ∀ j, s.workerReady j = false) :
    s.joinReady = true := by
  by_contra hj
  obtain ⟨i, hr⟩ := exists_workerReady hb (Bool.eq_false_iff.2 hj)
  exact Bool.eq_false_iff.1 (h i) hr

/-- Settles O13: a call none of whose workers has a step is ready to join, and START filled RGBA with zeros. -/
theorem sharpWithoutInteriorJoinsAtOnce : Obligations.SharpWithoutInteriorJoinsAtOnce := by
  intro i s hx ha hc hsmall
  have hnone := start_workerReady_of_no_interior hc hsmall i.executor
  exact ⟨_, hx ▸ exec_of_accepts ha i, joinReady_of_no_workerReady rfl hnone, hnone, fun _ _ _ _ => rfl,
    fun S x y => if_neg (by omega)⟩

end Sys2Proof.Machine
end
